-- ==== Sys2Proof/Word.lean ====
section
/-!
DEFINITION. The words of TA-LCDBTN: the bit vectors the spec computes with (spec/00_scope.md section 6).
-/

namespace Sys2Proof

/-- `b8`: a byte sent to the display, a byte of text, a button counter. -/
abbrev Byte := BitVec 8

/-- `b4`: what the four data lines carry (R11). -/
abbrev Nibble := BitVec 4

/-- The 64-bit request word `req` (R46). -/
abbrev ReqWord := BitVec 64

/-- The level of one line: `true` is level 1, `false` is level 0 (R10, R12). -/
abbrev Level := Bool

/-- `b[7:4]`, the nibble a byte transfer sends first (R34, R52). -/
def highNibble (b : Byte) : Nibble := b.extractLsb' 4 4

/-- `b[3:0]`, the nibble a byte transfer sends second (R34, R52). -/
def lowNibble (b : Byte) : Nibble := b.extractLsb' 0 4

end Sys2Proof
end

