-- ==== Sys2Proof/Config.lean ====
section
/-!
DEFINITION. The configuration record of spec/00_scope.md rule R2, and the free values: what the spec leaves
open and no proof may know.
-/

namespace Sys2Proof

/-- The names of the minimum delays of R2 that an operation waits for. -/
inductive DelayName where
  | tEH | tEL | tSettle | tLong | tFS1 | tFS2 | tFS3
  deriving DecidableEq, Repr

/-- The parameters of R2 that are not fixed by it. A run's record stands in the state (log entry 1), so a statement
about every state is a statement about every value of the parameters. Times are in nanoseconds; no step reads
them (R4). -/
structure Config where
  /-- `SHORT_TH`, in ticks. -/
  shortTh : Nat
  /-- `LONG_TH`, in ticks. -/
  longTh : Nat
  /-- `CNT_RESET`, the counters' value after reset. -/
  cntReset : Byte
  tEH : Nat
  tEL : Nat
  tSettle : Nat
  tLong : Nat
  tFS1 : Nat
  tFS2 : Nat
  tFS3 : Nat
  tPwron : Nat
  tFast : Nat
  tSlow : Nat
  /-- Nibble of the "function set" pulse (R81). -/
  fs8Nib : Nibble
  /-- Nibble that switches the display to 4-bit mode (R81). -/
  fs4Nib : Nibble
  cmdFuncset : Byte
  cmdDispOn : Byte
  cmdClear : Byte
  cmdHome : Byte
  /-- The command byte a display address is OR-ed into (R54). -/
  cmdSetDdram : Byte
  /-- The string terminator (R99). -/
  term : Byte
  fillDefault : Byte
  baseDefault : Byte
  /-- `VALUE_BITS`, the width of the formatter's value operand (R2, R49, log entry 28). -/
  valueBits : Nat
  /-- The largest base the formatter admits: 36, or up to 201 for a model that wants them (R103 (b)). -/
  maxBase : Nat
  /-- `TXT_SIZE` (R31). -/
  txtSize : Nat
  /-- Whether the slow handler goes first when both ticks are pending: open in the spec (R132, D15). -/
  slowFirst : Bool
  deriving DecidableEq, Repr

/-- The length in nanoseconds of a named delay. -/
def Config.duration (c : Config) : DelayName → Nat
  | .tEH => c.tEH
  | .tEL => c.tEL
  | .tSettle => c.tSettle
  | .tLong => c.tLong
  | .tFS1 => c.tFS1
  | .tFS2 => c.tFS2
  | .tFS3 => c.tFS3

/-- The constraints of R2's last column, and the range R103 (b) leaves to `maxBase`. -/
def Config.wf (c : Config) : Bool :=
  decide (1 ≤ c.shortTh ∧ c.shortTh ≤ c.longTh ∧ c.longTh ≤ 255) &&
  decide (0 < c.tEH ∧ 0 < c.tEL ∧ 0 < c.tSettle ∧ 0 < c.tLong) &&
  decide (c.tFS2 < c.tFS1 ∧ c.tFS3 < c.tFS2 ∧ 0 < c.tFS3) &&
  decide (0 < c.tFast ∧ 0 < c.tSlow) &&
  decide (1 ≤ c.valueBits) &&
  decide (36 ≤ c.maxBase ∧ c.maxBase ≤ 201) &&
  decide (1 ≤ c.txtSize ∧ c.txtSize ≤ 65536)

/-- The nominal values of R2. The thresholds and times are the source's approximate literals or general
knowledge (log entry 3); the holds, which R2 puts "below 1 µs", and `slowFirst` are DESIGN CHOICES. -/
def Config.default : Config where
  shortTh := 2
  longTh := 20
  cntReset := 0
  tEH := 500
  tEL := 500
  tSettle := 100000
  tLong := 2000000
  tFS1 := 4100000
  tFS2 := 100000
  tFS3 := 40000
  tPwron := 15000000
  tFast := 8000000
  tSlow := 500000000
  fs8Nib := 0x3
  fs4Nib := 0x2
  cmdFuncset := 0x28
  cmdDispOn := 0x0C
  cmdClear := 0x01
  cmdHome := 0x02
  cmdSetDdram := 0x80
  term := 0x00
  fillDefault := 0x20
  baseDefault := 10
  valueBits := 32
  maxBase := 36
  txtSize := 256
  slowFirst := false

/-- FREE VALUE (log entry 5): the order of the four writes of the `c`-th nibble; `0, 1, 2, 3` stand for
DB7, DB6, DB5, DB4. R76 leaves the order open. -/
opaque Config.freeDbOrder : Nat → Equiv.Perm (Fin 4)

/-- FREE VALUE (log entry 9): which of the data lines' old levels the display still sees when the `c`-th reset
makes E fall (V76: "not specified"). -/
opaque Config.freeResetNibble : Nat → Nibble

/-- FREE VALUE (log entry 9): whether the display still sees RS's old level at that instant. -/
opaque Config.freeResetRs : Nat → Bool

/-- FREE VALUE (log entry 11): `conv_due` after the `c`-th reset (R23: "Reset value: not in source"). -/
opaque Config.freeResetConvDue : Nat → Bool

end Sys2Proof
end

