-- ==== Sys2Proof/Syntax.lean ====
section
/-!
DEFINITION. The syntax: one constructor of `Instr` for each row of spec/opcode_table.json (R61).
-/

namespace Sys2Proof

/-- The six output lines (R10). -/
inductive Line where
  | rs | e | db7 | db6 | db5 | db4
  deriving DecidableEq, Repr

/-- The three buttons, in the order of their indices: `0 = UP`, `1 = ENTER`, `2 = DOWN` (R12). -/
inductive Button where
  | up | enter | down
  deriving DecidableEq, Repr

/-- Every row of the opcode table. Rows of format Z, B, XY, A, N, K are the host's operations (R48), `reserved…` the
reserved opcodes with the other 60 bits of their word (R50), then the events (R61), the primitives (R65 to R68, R77,
R78), and the command bytes of R56, each standing for the pseudo-operation of R60 that sends it. -/
inductive Instr where
  | lcdInit
  | lcdCmd (byte : Byte)
  | lcdChr (byte : Byte)
  | lcdGotoxy (col row : Byte)
  | lcdWrstr (addr : BitVec 16)
  | lcdWrnum (value : BitVec 32) (width fill base : Byte)
  | btnPressed (k : BitVec 2)
  | btnRdcnt (k : BitVec 2)
  | reserved0 (rest : BitVec 60)
  | reserved7 (rest : BitVec 60)
  | reservedA (rest : BitVec 60)
  | reservedB (rest : BitVec 60)
  | reservedC (rest : BitVec 60)
  | reservedD (rest : BitVec 60)
  | reservedE (rest : BitVec 60)
  | reservedF (rest : BitVec 60)
  | tickFast (in0 in1 in2 : Level)
  | tickSlow
  | rst
  | lineSet (l : Line)
  | lineClr (l : Line)
  | lineTgl (l : Line)
  | lineRd (k : Button)
  | sendNibble (n : Nibble)
  | sendByte (b : Byte)
  | cmdClear
  | cmdHome (x : BitVec 1)
  | cmdEntry (i d : BitVec 1)
  | cmdDispOff
  | cmdDispOn
  | cmdCursorOn
  | cmdCursorBlink
  | cmdShiftCurL
  | cmdShiftCurR
  | cmdShiftDspL
  | cmdShiftDspR
  | cmdFuncset
  | cmdSetCgram (a : BitVec 6)
  | cmdSetDdram (a : BitVec 7)
  deriving DecidableEq, Repr

end Sys2Proof
end

