-- ==== Sys2Proof/WellFormed.lean ====
section
/-!
DEFINITION. Which terms of `Instr` are instructions. The operands are typed, so the one check left is the button
index of format K: `k = 3` is reserved (R49, R50).
-/

namespace Sys2Proof

/-- Well-formedness: the button index of `BTN.PRESSED` and `BTN.RDCNT` is 0, 1 or 2. -/
def Instr.wellFormed : Instr → Bool
  | .btnPressed k => k != 3#2
  | .btnRdcnt k => k != 3#2
  | .lcdInit | .lcdCmd _ | .lcdChr _ | .lcdGotoxy _ _ | .lcdWrstr _ | .lcdWrnum _ _ _ _ => true
  | .reserved0 _ | .reserved7 _ | .reservedA _ | .reservedB _ => true
  | .reservedC _ | .reservedD _ | .reservedE _ | .reservedF _ => true
  | .tickFast _ _ _ | .tickSlow | .rst => true
  | .lineSet _ | .lineClr _ | .lineTgl _ | .lineRd _ | .sendNibble _ | .sendByte _ => true
  | .cmdClear | .cmdHome _ | .cmdEntry _ _ | .cmdDispOff | .cmdDispOn | .cmdCursorOn => true
  | .cmdCursorBlink | .cmdShiftCurL | .cmdShiftCurR | .cmdShiftDspL | .cmdShiftDspR => true
  | .cmdFuncset | .cmdSetCgram _ | .cmdSetDdram _ => true

end Sys2Proof
end

