-- ==== Sys2Proof/Decode.lean ====
section
/-!
DEFINITION. The decoder and the encoder of the two encodings the opcode table has bit patterns for: the 64-bit
request word (R46 to R50) and the LCD command byte (R56). Events and primitives have none (R61).
-/

namespace Sys2Proof

/-- An encoded instruction: a request word, or a command byte of the LCD bus. -/
inductive Code where
  | request (w : ReqWord)
  | command (b : Byte)
  deriving DecidableEq, Repr

/-- Why the decoder rejects a code. -/
inductive DecodeError where
  /-- A bit the word's format does not use is 1 (R46, R50). -/
  | mustBeZero (w : ReqWord)
  /-- Format K with `k = 3` (R50). -/
  | reservedButton (w : ReqWord)
  /-- A byte that is none of the patterns of R56. `LCD.CMD` sends it all the same (R58). -/
  | notACommandPattern (b : Byte)
  deriving DecidableEq, Repr

/-! ## Request words -/

/-- `req[63:60]`. -/
def reqOp (w : ReqWord) : BitVec 4 := w.extractLsb' 60 4

/-- Answer `i` if the "must be 0" bits `z` are 0 (R46). -/
def ifZero {n : Nat} (z : BitVec n) (w : ReqWord) (i : Instr) : Except DecodeError Instr :=
  if z = 0 then .ok i else .error (.mustBeZero w)

/-- Format K (R47, R50): the bits above the index must be 0 and the index must not be 3. -/
def decodeK (w : ReqWord) (i : BitVec 2 → Instr) : Except DecodeError Instr :=
  if w.extractLsb' 2 58 = 0 then
    if w.extractLsb' 0 2 = 3#2 then .error (.reservedButton w) else .ok (i (w.extractLsb' 0 2))
  else .error (.mustBeZero w)

/-- The decoder of request words, by opcode (R47, R48, R50). -/
def decodeRequest (w : ReqWord) : Except DecodeError Instr :=
  match (reqOp w).toNat with
  | 0 => .ok (.reserved0 (w.extractLsb' 0 60))
  | 1 => ifZero (w.extractLsb' 0 60) w .lcdInit
  | 2 => ifZero (w.extractLsb' 8 52) w (.lcdCmd (w.extractLsb' 0 8))
  | 3 => ifZero (w.extractLsb' 8 52) w (.lcdChr (w.extractLsb' 0 8))
  | 4 => ifZero (w.extractLsb' 16 44) w (.lcdGotoxy (w.extractLsb' 0 8) (w.extractLsb' 8 8))
  | 5 => ifZero (w.extractLsb' 16 44) w (.lcdWrstr (w.extractLsb' 0 16))
  | 6 => ifZero (w.extractLsb' 56 4) w
      (.lcdWrnum (w.extractLsb' 0 32) (w.extractLsb' 32 8) (w.extractLsb' 40 8) (w.extractLsb' 48 8))
  | 7 => .ok (.reserved7 (w.extractLsb' 0 60))
  | 8 => decodeK w .btnPressed
  | 9 => decodeK w .btnRdcnt
  | 10 => .ok (.reservedA (w.extractLsb' 0 60))
  | 11 => .ok (.reservedB (w.extractLsb' 0 60))
  | 12 => .ok (.reservedC (w.extractLsb' 0 60))
  | 13 => .ok (.reservedD (w.extractLsb' 0 60))
  | 14 => .ok (.reservedE (w.extractLsb' 0 60))
  | _ => .ok (.reservedF (w.extractLsb' 0 60))

/-! ## Command bytes -/

/-- The decoder of command bytes, by the patterns of R56. -/
def decodeCommand (b : Byte) : Except DecodeError Instr :=
  if b.extractLsb' 7 1 = 1#1 then .ok (.cmdSetDdram (b.extractLsb' 0 7))
  else if b.extractLsb' 6 2 = 1#2 then .ok (.cmdSetCgram (b.extractLsb' 0 6))
  else if b = 0x28#8 then .ok .cmdFuncset
  else if b = 0x1C#8 then .ok .cmdShiftDspR
  else if b = 0x18#8 then .ok .cmdShiftDspL
  else if b = 0x14#8 then .ok .cmdShiftCurR
  else if b = 0x10#8 then .ok .cmdShiftCurL
  else if b = 0x0F#8 then .ok .cmdCursorBlink
  else if b = 0x0E#8 then .ok .cmdCursorOn
  else if b = 0x0C#8 then .ok .cmdDispOn
  else if b = 0x08#8 then .ok .cmdDispOff
  else if b.extractLsb' 2 6 = 1#6 then .ok (.cmdEntry (b.extractLsb' 1 1) (b.extractLsb' 0 1))
  else if b.extractLsb' 1 7 = 1#7 then .ok (.cmdHome (b.extractLsb' 0 1))
  else if b = 0x01#8 then .ok .cmdClear
  else .error (.notACommandPattern b)

/-- The decoder, total on both kinds of code. -/
def decode : Code → Except DecodeError Instr
  | .request w => decodeRequest w
  | .command b => decodeCommand b

/-! ## The encoder -/

/-- Format Z. -/
def wordZ (op : BitVec 4) : ReqWord := op ++ 0#60

/-- Format B. -/
def wordB (op : BitVec 4) (byte : Byte) : ReqWord := op ++ 0#52 ++ byte

/-- Format XY. -/
def wordXY (op : BitVec 4) (col row : Byte) : ReqWord := op ++ 0#44 ++ row ++ col

/-- Format A. -/
def wordA (op : BitVec 4) (addr : BitVec 16) : ReqWord := op ++ 0#44 ++ addr

/-- Format N. -/
def wordN (op : BitVec 4) (value : BitVec 32) (width fill base : Byte) : ReqWord :=
  op ++ 0#4 ++ base ++ fill ++ width ++ value

/-- Format K. -/
def wordK (op : BitVec 4) (k : BitVec 2) : ReqWord := op ++ 0#58 ++ k

/-- A word of a reserved opcode. -/
def wordR (op : BitVec 4) (rest : BitVec 60) : ReqWord := op ++ rest

/-- The code of an instruction; `none` for events and primitives, which have no bit pattern (R61). -/
def encode : Instr → Option Code
  | .lcdInit => some (.request (wordZ 0x1))
  | .lcdCmd c => some (.request (wordB 0x2 c))
  | .lcdChr c => some (.request (wordB 0x3 c))
  | .lcdGotoxy col row => some (.request (wordXY 0x4 col row))
  | .lcdWrstr addr => some (.request (wordA 0x5 addr))
  | .lcdWrnum value width fill base => some (.request (wordN 0x6 value width fill base))
  | .btnPressed k => some (.request (wordK 0x8 k))
  | .btnRdcnt k => some (.request (wordK 0x9 k))
  | .reserved0 r => some (.request (wordR 0x0 r))
  | .reserved7 r => some (.request (wordR 0x7 r))
  | .reservedA r => some (.request (wordR 0xA r))
  | .reservedB r => some (.request (wordR 0xB r))
  | .reservedC r => some (.request (wordR 0xC r))
  | .reservedD r => some (.request (wordR 0xD r))
  | .reservedE r => some (.request (wordR 0xE r))
  | .reservedF r => some (.request (wordR 0xF r))
  | .tickFast _ _ _ => none
  | .tickSlow => none
  | .rst => none
  | .lineSet _ => none
  | .lineClr _ => none
  | .lineTgl _ => none
  | .lineRd _ => none
  | .sendNibble _ => none
  | .sendByte _ => none
  | .cmdClear => some (.command 0x01)
  | .cmdHome x => some (.command (1#7 ++ x))
  | .cmdEntry i d => some (.command (1#6 ++ i ++ d))
  | .cmdDispOff => some (.command 0x08)
  | .cmdDispOn => some (.command 0x0C)
  | .cmdCursorOn => some (.command 0x0E)
  | .cmdCursorBlink => some (.command 0x0F)
  | .cmdShiftCurL => some (.command 0x10)
  | .cmdShiftCurR => some (.command 0x14)
  | .cmdShiftDspL => some (.command 0x18)
  | .cmdShiftDspR => some (.command 0x1C)
  | .cmdFuncset => some (.command 0x28)
  | .cmdSetCgram a => some (.command (1#2 ++ a))
  | .cmdSetDdram a => some (.command (1#1 ++ a))

/-! ## Pseudo-operations (R60) -/

/-- `LCD.WRNUM value, width`, with the default fill and base. -/
def pseudoWrnum (c : Config) (value : BitVec 32) (width : Byte) : Instr :=
  .lcdWrnum value width c.fillDefault c.baseDefault

/-- `LCD.WRNUM value, width, fill`, with the default base. -/
def pseudoWrnumFill (c : Config) (value : BitVec 32) (width fill : Byte) : Instr :=
  .lcdWrnum value width fill c.baseDefault

/-- `LCD.CLEAR`. -/
def pseudoClear (c : Config) : Instr := .lcdCmd c.cmdClear

/-- `LCD.HOME`. -/
def pseudoHome (c : Config) : Instr := .lcdCmd c.cmdHome

/-! ## The host's question -/

/-- The code of `nbits` bits `w`, as the opcode table numbers them: 8 bits are a command byte, more are a
request word, whose bits above `nbits` are 0. -/
def tableCode (nbits w : Nat) : Code :=
  if nbits ≤ 8 then .command (BitVec.ofNat 8 w) else .request (BitVec.ofNat 64 w)

/-- What the decoder reads from a row's bits. -/
def decodeTableWord (nbits w : Nat) : Option Instr :=
  (decode (tableCode nbits w)).toOption

end Sys2Proof
end

