-- ==== Sys2Proof/Machine/State.lean ====
section
/-!
DEFINITION. The state of the block (spec/10_state.md, the table of R24), the micro-steps its sequencer has still to
do, what a model keeps beside it (R21), and the parameters of a run (R22). Plain data throughout.
-/

namespace Sys2Proof.Machine

/-- One value for each output line. -/
structure LineFile (α : Type) where
  rs : α
  e : α
  db7 : α
  db6 : α
  db5 : α
  db4 : α
  deriving DecidableEq, Repr

/-- One value for each button. -/
structure PerButton (α : Type) where
  up : α
  enter : α
  down : α
  deriving DecidableEq, Repr

/-- The direction of a line (R69). -/
inductive Dir where
  | input
  | output
  deriving DecidableEq, Repr

/-- The two interrupt sources (R125). -/
inductive TickSource where
  | fast
  | slow
  deriving DecidableEq, Repr

/-- A micro-step that only concerns the bus: a write of level `v` to a line (`LINE.SET`, `LINE.CLR`), the `j`-th
of the four writes of `DB <- n` (R76), or a delay. -/
inductive Prim where
  | line (v : Level) (l : Line)
  | data (n : Nibble) (j : Fin 4)
  | delay (d : DelayName)
  deriving DecidableEq, Repr

/-- A micro-step of an operation (spec/00_scope.md section 6). The arguments are the operation's locals (R17). -/
inductive Micro where
  /-- A line write or a delay. -/
  | bus (p : Prim)
  /-- The `MemRead(TXT, a, 1)` at the head of the loop of `LCD.WRSTR` (R98). -/
  | text (a : Nat)
  /-- The first read of `cnt[k]` by `BTN.PRESSED k` (R111). -/
  | test (k : Button)
  /-- A read of `cnt[k]` in the wait of `BTN.PRESSED k` (R113). -/
  | wait (k : Button)
  /-- The read of `cnt[k]` by `BTN.RDCNT k` (R116). -/
  | load (k : Button)
  deriving DecidableEq, Repr

/-- An event of the line trace (R5): `W(L, v)` or `D(T)`. -/
inductive TraceEvent where
  | write (l : Line) (v : Level)
  | delay (d : DelayName)
  deriving DecidableEq, Repr

/-- An entry of the transfer trace (R5), or a delay marker between two of them. -/
inductive XferEvent where
  | entry (rs : Level) (n : Nibble)
  | delay (d : DelayName)
  deriving DecidableEq, Repr

/-- What the host and the environment do (R3, R22, R140), and `go`: nothing arrives and the block moves on its own. -/
inductive Event where
  /-- The block does one step of its own. -/
  | go
  /-- The host presents a request word (R16, R46). -/
  | request (w : ReqWord)
  /-- A tick arrives (R129). -/
  | tick (src : TickSource)
  /-- The environment puts these levels on in[0], in[1], in[2] (R12). -/
  | levels (in0 in1 in2 : Level)
  /-- The host's loop clears its flag `conv_due` (R23, R139), while no operation blocks it (R115). -/
  | clearDue
  /-- The reset event (R155, R157). -/
  | rst
  deriving DecidableEq, Repr

/-- The model fault of R146. -/
inductive Fault where
  /-- `TextOverrun(a)`: `LCD.WRSTR` would read `TXT` at `a`, past its end (R99, R146). The micro-step records it in
  `State.mark`; the machine stops with it when the main context would have to go on (R149). Safe: the model stops
  where the source's software reads on into memory no rule describes. -/
  | textOverrun (a : Nat)
  deriving DecidableEq, Repr

/-- The refusals of R147. -/
inductive Refusal where
  /-- An instruction without a meaning yet: raised by no arm of the finished dispatch. Safe. -/
  | notModelled (mnemonic : String)
  /-- `Refuse.ReservedRequest`: a reserved opcode, a "must be 0" bit that is 1, or `k = 3`; raised when the word is
  presented, and by the meanings of the reserved rows, of format K, and of `LCD.WRNUM` for a value wider than
  `VALUE_BITS` (R50, R49, log entry 28). Safe. -/
  | reservedRequest (req : ReqWord)
  /-- `Refuse.IssueWhileBusy`: any request presented while `busy = 1` (R140). Safe. -/
  | issueWhileBusy
  /-- `Refuse.ColumnRange`: `LCD.GOTOXY` whose address exceeds 0x7F (R97). Safe. -/
  | columnRange (col row : Byte)
  /-- `Refuse.Base`: `LCD.WRNUM` with a base below 2 or above `maxBase` (R103 (a), (b)). Safe. -/
  | base (base : Byte)
  /-- `Refuse.NulFill`: `LCD.WRNUM` with a null fill and a positive width (R103 (c)). Safe. -/
  | nulFill
  deriving DecidableEq, Repr

/-- What the fault mark of R21 records: a model fault (R146) or a refusal (R147). -/
inductive Mark where
  | fault (f : Fault)
  | refusal (r : Refusal)
  deriving DecidableEq, Repr

/-- The state. First the hardware's own (R24), then `conv_due` at the boundary (R23), then what a model keeps (R21),
then the model's own counters, then the parameters of the run (R22). -/
structure State where
  /-- The six output latches (R10). -/
  lines : LineFile Level
  /-- The direction of the six lines (R10, R69). -/
  lineDir : LineFile Dir
  /-- The direction of the three input lines (R12, R69). -/
  inDir : PerButton Dir
  /-- `cnt[0..2]` (R13). -/
  cnt : PerButton Byte
  /-- The sequencer's status (R16). -/
  busy : Bool
  /-- The latched request word (R16). -/
  req : ReqWord
  /-- The index of the next micro-step (R17); after an operation, how many it had. -/
  upc : Nat
  /-- What is left of the operation: the continuation R17 speaks of, with its locals. -/
  todo : List Micro
  /-- The result the host reads (R18). -/
  result : Byte
  /-- The fast tick's pending latch (R19). -/
  pendFast : Bool
  /-- The slow tick's pending latch (R19). -/
  pendSlow : Bool
  /-- A handler is running (R19). -/
  inIsr : Bool
  /-- The host's flag the slow handler sets (R23, R131). -/
  convDue : Bool
  /-- The line trace (R5), oldest first. -/
  lineTrace : List TraceEvent
  /-- The transfer trace with its delay markers (R5), oldest first. -/
  xferTrace : List XferEvent
  /-- The recorded model fault or refusal (R21, R149). -/
  mark : Option Mark
  /-- The level the last `LINE.RD` returned (R68): the model's own (log entry 17). -/
  rdValue : Level
  /-- How many nibbles have been put on the data lines: argument of the free order of writes (log entry 5). -/
  nibbles : Nat
  /-- How many resets there have been: argument of a reset's free values (log entry 9). -/
  resets : Nat
  /-- The configuration record (R2). -/
  cfg : Config
  /-- The content of the text space (R31): addresses strictly rising, no byte 0x00 listed. -/
  txt : List Host.Cell
  /-- The levels on in[0..2] (R12). -/
  inp : PerButton Level
  /-- What host and environment do next (R22); when nothing is left, the block moves on its own for ever. -/
  script : List Event
  deriving DecidableEq, Repr

/-- The machine right after reset (R24, R155), at the start of a run with nothing presented to it. -/
def State.reset : State where
  lines := ⟨false, false, false, false, false, false⟩
  lineDir := ⟨.output, .output, .output, .output, .output, .output⟩
  inDir := ⟨.input, .input, .input⟩
  cnt := ⟨Config.default.cntReset, Config.default.cntReset, Config.default.cntReset⟩
  busy := false
  req := 0
  upc := 0
  todo := []
  result := 0
  pendFast := false
  pendSlow := false
  inIsr := false
  convDue := false
  lineTrace := []
  xferTrace := []
  mark := none
  rdValue := true
  nibbles := 0
  resets := 0
  cfg := Config.default
  txt := []
  inp := ⟨true, true, true⟩
  script := []

end Sys2Proof.Machine
end

