-- ==== Sys2Proof/Machine/Ops.lean ====
section
/-!
DEFINITION. The named operations over the state: lines, counters, text space, the start and end of an operation,
and the entry into and return from an interrupt handler.
-/

namespace Sys2Proof.Machine

/-! ## Lines (spec/40_pin_primitives.md) -/

/-- `line[L]`. -/
def LineFile.get {α : Type} (f : LineFile α) : Line → α
  | .rs => f.rs
  | .e => f.e
  | .db7 => f.db7
  | .db6 => f.db6
  | .db5 => f.db5
  | .db4 => f.db4

/-- `line[L] <- v`. -/
def LineFile.set {α : Type} (f : LineFile α) (l : Line) (v : α) : LineFile α :=
  match l with
  | .rs => { f with rs := v }
  | .e => { f with e := v }
  | .db7 => { f with db7 := v }
  | .db6 => { f with db6 := v }
  | .db5 => { f with db5 := v }
  | .db4 => { f with db4 := v }

/-- The bit of a nibble that belongs on a data line, most significant on DB7 (R11); index 0 is DB7, 3 is DB4. -/
def nibbleBit (n : Nibble) (i : Fin 4) : Level := n.getLsbD (3 - i.val)

/-- The data line of an index. -/
def dataLine : Fin 4 → Line
  | 0 => .db7
  | 1 => .db6
  | 2 => .db5
  | 3 => .db4

/-- `line[DB7] ++ line[DB6] ++ line[DB5] ++ line[DB4]` (R66). -/
def LineFile.dataNibble (f : LineFile Level) : Nibble :=
  BitVec.ofBool f.db7 ++ BitVec.ofBool f.db6 ++ BitVec.ofBool f.db5 ++ BitVec.ofBool f.db4

/-- The lines with `n` on the data lines (R11). -/
def LineFile.setData (f : LineFile Level) (n : Nibble) : LineFile Level :=
  { f with
    db7 := nibbleBit n 0
    db6 := nibbleBit n 1
    db5 := nibbleBit n 2
    db4 := nibbleBit n 3 }

/-- The lines after level `v` is written to the data line of index `i`. -/
def LineFile.setDataLine {α : Type} (f : LineFile α) (i : Fin 4) (v : α) : LineFile α :=
  { f with
    db7 := if i = 0 then v else f.db7
    db6 := if i = 1 then v else f.db6
    db5 := if i = 2 then v else f.db5
    db4 := if i = 3 then v else f.db4 }

/-- What the transfer trace gains when level `v` is written to `l`: an entry at a 1-to-0 transition of E (R5, R66). -/
def fallEntries (f : LineFile Level) (l : Line) (v : Level) : List XferEvent :=
  if l = .e ∧ f.e = true ∧ v = false then [.entry f.rs f.dataNibble] else []

/-- The unconditional write of a level to an output line, with its trace event (R65, R66). -/
def State.driveLine (v : Level) (l : Line) (s : State) : State :=
  { s with
    lines := s.lines.set l v
    lineTrace := s.lineTrace ++ [.write l v]
    xferTrace := s.xferTrace ++ fallEntries s.lines l v }

/-- The write of the bit of `n` that belongs on the data line of index `i` (R11, R76). A data line is not E, so the
transfer trace gains nothing. -/
def State.driveData (n : Nibble) (i : Fin 4) (s : State) : State :=
  { s with
    lines := s.lines.setDataLine i (nibbleBit n i)
    lineTrace := s.lineTrace ++ [.write (dataLine i) (nibbleBit n i)] }

/-- The `j`-th write of `DB <- n` (R76). Which data line it is, is free; after the fourth write the data lines hold
`n`, whatever the order (log entry 5). -/
def State.writeData (n : Nibble) (j : Fin 4) (s : State) : State :=
  let t := s.driveData n (Config.freeDbOrder s.nibbles j)
  match j with
  | 0 => t
  | 1 => t
  | 2 => t
  | 3 => { t with lines := s.lines.setData n, nibbles := s.nibbles + 1 }

/-- `Delay(T)`: a marker in both traces (R4, R5). -/
def State.waitDelay (d : DelayName) (s : State) : State :=
  { s with
    lineTrace := s.lineTrace ++ [.delay d]
    xferTrace := s.xferTrace ++ [.delay d] }

/-- One bus micro-step. -/
def Prim.apply (p : Prim) (s : State) : State :=
  match p with
  | .line v l => s.driveLine v l
  | .data n j => s.writeData n j
  | .delay d => s.waitDelay d

/-- Bus micro-steps one after the other. -/
def State.applyAll : List Prim → State → State
  | [], s => s
  | p :: ps, s => State.applyAll ps (p.apply s)

/-! ## Buttons and counters -/

/-- Read the value of a button. -/
def PerButton.get {α : Type} (f : PerButton α) : Button → α
  | .up => f.up
  | .enter => f.enter
  | .down => f.down

/-- `LINE.RD k` as a function: the live level `in[k]` (R68). -/
def State.readIn (s : State) (k : Button) : Level := s.inp.get k

/-- The atomic read of `cnt[k]` (R36 (a)). -/
def State.readCnt (s : State) (k : Button) : Byte := s.cnt.get k

/-- `sat_inc` (spec/00_scope.md section 6). -/
def satInc (c : Byte) : Byte := if c = 255#8 then 255#8 else c + 1#8

/-- One counter after one sample: level 0 is active (R127). -/
def sampleCnt (level : Level) (c : Byte) : Byte := if level = false then satInc c else 0#8

/-- The body of the Input Sampler (R127). -/
def State.sampleButtons (in0 in1 in2 : Level) (s : State) : State :=
  { s with cnt := ⟨sampleCnt in0 s.cnt.up, sampleCnt in1 s.cnt.enter, sampleCnt in2 s.cnt.down⟩ }

/-! ## The text space (R31) -/

/-- What an address of `TXT` that no cell lists reads as (log entry 15). -/
def txtDefault : Byte := 0x00#8

/-- The byte at an address of a text content. -/
def txtRead : List Host.Cell → Nat → Byte
  | [], _ => txtDefault
  | (b, v) :: rest, a => if b = a then v else txtRead rest a

/-- `MemRead(TXT, a, 1)`: no value at or past `TXT_SIZE` (R31). -/
def State.readText (s : State) (a : Nat) : Option Byte :=
  if a < s.cfg.txtSize then some (txtRead s.txt a) else none

/-- Give a run's text content a byte, keeping the canonical form. The content is a parameter of the run (R22); no
step of the machine writes it. -/
def txtPut (a : Nat) (v : Byte) : List Host.Cell → List Host.Cell
  | [] => if v = txtDefault then [] else [(a, v)]
  | (b, u) :: rest =>
    if a < b then (if v = txtDefault then (b, u) :: rest else (a, v) :: (b, u) :: rest)
    else if a = b then (if v = txtDefault then rest else (a, v) :: rest)
    else (b, u) :: txtPut a v rest

/-- The canonical form from address `low` on: rising addresses below `size`, no default byte. -/
def txtWfFrom (size : Nat) : Nat → List Host.Cell → Bool
  | _, [] => true
  | low, (a, v) :: rest => decide (low ≤ a) && decide (a < size) && (v != txtDefault) && txtWfFrom size (a + 1) rest

/-- The canonical form of the text content. -/
def Memory.wf (size : Nat) (t : List Host.Cell) : Bool := txtWfFrom size 0 t

/-! ## The sequencer's bookkeeping (R16 to R18) -/

/-- The end of an operation: `result <- r`, `busy <- 0` (R16, R51). -/
def State.endOp (r : Byte) (s : State) : State :=
  { s with result := r, busy := false, todo := [] }

/-- Go on with what is left; when nothing is, the operation ends with result 0 (R18, D19). -/
def State.goOn (rest : List Micro) (s : State) : State :=
  match rest with
  | [] => s.endOp 0
  | m :: ms => { s with todo := m :: ms }

/-- One micro-step has been done (R17). -/
def State.countStep (s : State) : State := { s with upc := s.upc + 1 }

/-- The latching of a request: `req`, `busy <- 1`, `upc <- 0`, and the operation is started (R16, R17). An operation
without micro-steps ends at once (R102 (a)). -/
def State.start (w : ReqWord) (ops : List Micro) (s : State) : State :=
  State.goOn ops { s with req := w, busy := true, upc := 0 }

/-! ## The fault mark (R21, R147, R149) -/

/-- What a turn of the main context is once this is recorded. -/
def Mark.stop : Mark → Host.Outcome State Fault Refusal
  | .fault f => .fault f
  | .refusal r => .refused r

/-- A turn of the main context, host or sequencer (R3): with something recorded it does not go on (R149). -/
def State.mainTurn (s : State) (k : Host.Outcome State Fault Refusal) : Host.Outcome State Fault Refusal :=
  match s.mark with
  | some m => m.stop
  | none => k

/-- The recorded refusal, if there is one: with it the run goes no further (R147). -/
def State.refusal (s : State) : Option Refusal :=
  match s.mark with
  | some (.refusal r) => some r
  | some (.fault _) => none
  | none => none

/-- The refusal is recorded, and nothing else changes (R147). -/
def State.recordRefusal (r : Refusal) (s : State) : State := { s with mark := some (.refusal r) }

/-- A refusal becomes a state in which it is recorded; any other outcome stays. -/
def State.recordIn (s : State) (o : Host.Outcome State Fault Refusal) : Host.Outcome State Fault Refusal :=
  match o with
  | .next t => .next t
  | .fault f => .fault f
  | .refused r => .next (s.recordRefusal r)

/-! ## Admission of a request (R140, R148) -/

/-- The gate every request passes first: a request while busy is refused (R140, R148); with something recorded the main
context does not go on (R149). -/
def State.gate (s : State) (k : Host.Outcome State Fault Refusal) : Host.Outcome State Fault Refusal :=
  if s.busy then .refused .issueWhileBusy else s.mainTurn k

/-- Admit a request and start its operation. -/
def State.issue (w : ReqWord) (ops : List Micro) (s : State) : Host.Outcome State Fault Refusal :=
  s.gate (.next (s.start w ops))

/-- The refusal of a reserved word (R50), after the check for `busy` (R148). -/
def State.refuseReserved (w : ReqWord) (s : State) : Host.Outcome State Fault Refusal :=
  if s.busy then .refused .issueWhileBusy else .refused (.reservedRequest w)

/-! ## Taking an interrupt and returning from it (R129, R134, R135) -/

/-- A tick arrives: its pending latch is set; if it was set already, the two merge (R129). -/
def State.raiseTick (src : TickSource) (s : State) : State :=
  match src with
  | .fast => { s with pendFast := true }
  | .slow => { s with pendSlow := true }

/-- Entry: the source's latch is cleared and `in_isr` set; nothing is saved (R134). -/
def State.enterHandler (src : TickSource) (s : State) : State :=
  match src with
  | .fast => { s with pendFast := false, inIsr := true }
  | .slow => { s with pendSlow := false, inIsr := true }

/-- Return: `in_isr <- 0` (R135). -/
def State.leaveHandler (s : State) : State := { s with inIsr := false }

/-- One complete run of a handler as one step (R39, R126); while a handler runs already, the tick only sets its latch
(R130). -/
def State.runHandler (src : TickSource) (body : State → State) (s : State) : State :=
  if s.inIsr then s.raiseTick src else (body (s.enterHandler src)).leaveHandler

end Sys2Proof.Machine
end

