-- ==== Sys2Proof/Machine/Operands.lean ====
section
/-!
DEFINITION. Operand forms: button indices, display addresses, and the characters of the numeric formatter
(R49, R54, R55, R96, R97, R100).
-/

namespace Sys2Proof.Machine

/-- The button of an index; 3 is reserved (R49). -/
def buttonOf (k : BitVec 2) : Option Button :=
  match k.toNat with
  | 0 => some .up
  | 1 => some .enter
  | 2 => some .down
  | _ => none

/-- `ROWBASE[min(row, 3)]`: every row from 3 on uses the last base (R54, R96). -/
def rowBase (row : Byte) : Nat :=
  match min row.toNat 3 with
  | 0 => 0x00
  | 1 => 0x40
  | 2 => 0x14
  | _ => 0x54

/-- The display address of a cell, a mathematical integer (R95). -/
def displayAddr (col row : Byte) : Nat := rowBase row + col.toNat

/-- The command byte that carries a display address (R54). -/
def addrCommand (c : Config) (a : Nat) : Byte := c.cmdSetDdram ||| BitVec.ofNat 8 a

/-- `digitchar(d)` (R55). -/
def digitChar (d : Nat) : Byte :=
  if d ≤ 9 then BitVec.ofNat 8 (0x30 + d) else BitVec.ofNat 8 (0x41 + (d - 10))

/-- The loop of R100 from its second turn on: the positions still to fill, to the left of what is built. -/
def fillBuffer (base : Nat) (fill : Byte) : Nat → Nat → List Byte → List Byte
  | 0, _, built => built
  | k + 1, v, built =>
    if v = 0 then fillBuffer base fill k v (fill :: built)
    else fillBuffer base fill k (v / base) (digitChar (v % base) :: built)

/-- The buffer `buf[0 .. width-1]` of R100, filled from the right; the rightmost position always gets a digit. -/
def formatBuffer (value width : Nat) (fill : Byte) (base : Nat) : List Byte :=
  match width with
  | 0 => []
  | k + 1 => fillBuffer base fill k (value / base) [digitChar (value % base)]

end Sys2Proof.Machine
end

