-- ==== Sys2Proof/Machine/Flags.lean ====
section
/-!
DEFINITION. The predicates of the block. It stores no flag (R15): these are functions of counters and operands.
-/

namespace Sys2Proof.Machine

/-- `short[k]`, confirmed short (R15). -/
def State.short (s : State) (k : Button) : Bool := decide (s.cfg.shortTh ≤ (s.readCnt k).toNat)

/-- `long[k]`, confirmed long (R15). No operation reads it (R117). -/
def State.long (s : State) (k : Button) : Bool := decide (s.cfg.longTh ≤ (s.readCnt k).toNat)

/-- `LONG(c)`: the commands with the extra settle delay (R57). -/
def longSettle (c : Byte) : Bool := (c.extractLsb' 2 6 == 0#6) && (c.extractLsb' 0 2 != 0#2)

/-- Whether `LCD.GOTOXY` admits the cell (R97). -/
def columnOk (col row : Byte) : Bool := decide (displayAddr col row ≤ 0x7F)

/-- Whether the value has no bit above `VALUE_BITS` (R49, log entry 28). -/
def valueOk (c : Config) (value : BitVec 32) : Bool := decide (value.toNat < 2 ^ c.valueBits)

/-- Whether the formatter admits the base (R103 (a), (b)). -/
def baseOk (c : Config) (base : Byte) : Bool := decide (2 ≤ base.toNat ∧ base.toNat ≤ c.maxBase)

/-- Whether the formatter admits the fill (R103 (c)). -/
def fillOk (width fill : Byte) : Bool := !(fill == 0#8 && width != 0#8)

end Sys2Proof.Machine
end

