-- ==== Sys2Proof/Machine/MicroCode.lean ====
section
/-!
DEFINITION. The micro-steps of the operations, as the pseudocode of spec/41_lcd_bus.md and spec/42_lcd_text.md
lists them.
-/

namespace Sys2Proof.Machine

/-- `SendNibble(n)`, eight micro-steps (R77). -/
def nibbleCode (n : Nibble) : List Prim :=
  [.data n 0, .data n 1, .data n 2, .data n 3, .line true .e, .delay .tEH, .line false .e, .delay .tEL]

/-- `SendByte(b)`, seventeen micro-steps (R78). -/
def byteCode (b : Byte) : List Prim :=
  nibbleCode (highNibble b) ++ nibbleCode (lowNibble b) ++ [.delay .tSettle]

/-- The body of `LCD.CMD c` (R79). -/
def commandCode (c : Byte) : List Prim :=
  .line false .rs :: (byteCode c ++ if longSettle c then [.delay .tLong] else [])

/-- The body of `LCD.CHR c` (R80). -/
def characterCode (c : Byte) : List Prim := .line true .rs :: byteCode c

/-- The body of `LCD.INIT`, ninety-two micro-steps (R81). -/
def initCode (c : Config) : List Prim :=
  .line false .rs ::
    (nibbleCode c.fs8Nib ++ [.delay .tFS1] ++
     nibbleCode c.fs8Nib ++ [.delay .tFS2] ++
     nibbleCode c.fs8Nib ++ [.delay .tFS3] ++
     nibbleCode c.fs4Nib ++ [.delay .tSettle] ++
     commandCode c.cmdFuncset ++ commandCode c.cmdDispOn ++ commandCode c.cmdClear)

/-- The characters of a buffer, sent from the left (R100). -/
def bufferCode (buf : List Byte) : List Prim := buf.flatMap characterCode

/-- Bus micro-steps as micro-steps of an operation. -/
def busCode (ps : List Prim) : List Micro := ps.map .bus

end Sys2Proof.Machine
end

