-- ==== Sys2Proof/Machine/Buttons.lean ====
section
/-!
DEFINITION. `BTN.PRESSED` and `BTN.RDCNT` (spec/43_buttons.md).
-/

namespace Sys2Proof.Machine

/-- Start an operation on the button of an index, or refuse the reserved index (R50). -/
def issueButton (w : ReqWord) (k : BitVec 2) (ops : Button → List Micro) (s : State) :
    Host.Outcome State Fault Refusal :=
  match buttonOf k with
  | some b => s.issue w (ops b)
  | none => s.refuseReserved w

/-- `BTN.PRESSED k` (R111). -/
def execBtnPressed (k : BitVec 2) (s : State) : Host.Outcome State Fault Refusal :=
  issueButton (wordK 0x8 k) k (fun b => [.test b]) s

/-- `BTN.RDCNT k` (R116). -/
def execBtnRdcnt (k : BitVec 2) (s : State) : Host.Outcome State Fault Refusal :=
  issueButton (wordK 0x9 k) k (fun b => [.load b]) s

end Sys2Proof.Machine
end

