-- ==== Sys2Proof/Machine/Lcd.lean ====
section
/-!
DEFINITION. `LCD.INIT`, `LCD.CMD`, `LCD.CHR` (spec/41_lcd_bus.md). The meaning of a request operation is its start:
the word is latched, `busy` rises and its micro-steps stand before the sequencer (R16, R17, R75); each later step of
the main context does one of them (R39).
-/

namespace Sys2Proof.Machine

/-- Issue `LCD.CMD c` (R79). -/
def issueCommand (c : Byte) (s : State) : Host.Outcome State Fault Refusal :=
  s.issue (wordB 0x2 c) (busCode (commandCode c))

/-- `LCD.INIT` (R81). -/
def execLcdInit (s : State) : Host.Outcome State Fault Refusal :=
  s.issue (wordZ 0x1) (busCode (initCode s.cfg))

/-- `LCD.CMD byte` (R79). -/
def execLcdCmd (byte : Byte) (s : State) : Host.Outcome State Fault Refusal :=
  issueCommand byte s

/-- `LCD.CHR byte` (R80). -/
def execLcdChr (byte : Byte) (s : State) : Host.Outcome State Fault Refusal :=
  s.issue (wordB 0x3 byte) (busCode (characterCode byte))

end Sys2Proof.Machine
end

