-- ==== Sys2Proof/Machine/Commands.lean ====
section
/-!
DEFINITION. The command bytes of R56. As an instruction each is the pseudo-operation `LCD.CMD <symbolic name>`, which
sends the byte (R60); what the display does with it is outside the block (R20).
-/

namespace Sys2Proof.Machine

/-- `LCD.CMD CMD_CLEAR` (R56, R60). -/
def execCmdClear (s : State) : Host.Outcome State Fault Refusal := issueCommand 0x01 s

/-- `LCD.CMD CMD_HOME` (R56, R60). -/
def execCmdHome (x : BitVec 1) (s : State) : Host.Outcome State Fault Refusal := issueCommand (1#7 ++ x) s

/-- `LCD.CMD CMD_ENTRY` (R56, R60). -/
def execCmdEntry (i d : BitVec 1) (s : State) : Host.Outcome State Fault Refusal := issueCommand (1#6 ++ i ++ d) s

/-- `LCD.CMD CMD_DISP_OFF` (R56, R60). -/
def execCmdDispOff (s : State) : Host.Outcome State Fault Refusal := issueCommand 0x08 s

/-- `LCD.CMD CMD_DISP_ON` (R56, R60). -/
def execCmdDispOn (s : State) : Host.Outcome State Fault Refusal := issueCommand 0x0C s

/-- `LCD.CMD CMD_CURSOR_ON` (R56, R60). -/
def execCmdCursorOn (s : State) : Host.Outcome State Fault Refusal := issueCommand 0x0E s

/-- `LCD.CMD CMD_CURSOR_BLINK` (R56, R60). -/
def execCmdCursorBlink (s : State) : Host.Outcome State Fault Refusal := issueCommand 0x0F s

/-- `LCD.CMD CMD_SHIFT_CUR_L` (R56, R60). -/
def execCmdShiftCurL (s : State) : Host.Outcome State Fault Refusal := issueCommand 0x10 s

/-- `LCD.CMD CMD_SHIFT_CUR_R` (R56, R60). -/
def execCmdShiftCurR (s : State) : Host.Outcome State Fault Refusal := issueCommand 0x14 s

/-- `LCD.CMD CMD_SHIFT_DSP_L` (R56, R60). -/
def execCmdShiftDspL (s : State) : Host.Outcome State Fault Refusal := issueCommand 0x18 s

/-- `LCD.CMD CMD_SHIFT_DSP_R` (R56, R60). -/
def execCmdShiftDspR (s : State) : Host.Outcome State Fault Refusal := issueCommand 0x1C s

/-- `LCD.CMD CMD_FUNCSET` (R56, R60). -/
def execCmdFuncset (s : State) : Host.Outcome State Fault Refusal := issueCommand 0x28 s

/-- `LCD.CMD CMD_SET_CGRAM` (R56, R60). -/
def execCmdSetCgram (a : BitVec 6) (s : State) : Host.Outcome State Fault Refusal := issueCommand (1#2 ++ a) s

/-- `LCD.CMD CMD_SET_DDRAM` (R56, R60). -/
def execCmdSetDdram (a : BitVec 7) (s : State) : Host.Outcome State Fault Refusal := issueCommand (1#1 ++ a) s

end Sys2Proof.Machine
end

