-- ==== Sys2Proof/Machine/Events.lean ====
section
/-!
DEFINITION. The events: the two tick handlers (R127, R131) and the reset (R155, R157).
-/

namespace Sys2Proof.Machine

/-- `TICK.FAST`, the Input Sampler, with the three sampled levels (R127). -/
def execTickFast (in0 in1 in2 : Level) (s : State) : Host.Outcome State Fault Refusal :=
  .next (s.runHandler .fast (State.sampleButtons in0 in1 in2))

/-- `conv_due <- 1` (R131). -/
def State.setConvDue (s : State) : State := { s with convDue := true }

/-- `TICK.SLOW`, the Temperature Scheduler: `conv_due <- 1` (R131). -/
def execTickSlow (s : State) : Host.Outcome State Fault Refusal :=
  .next (s.runHandler .slow State.setConvDue)

/-- The entry a reset with E high adds to the transfer trace. What RS and the data lines show when E falls is not
specified; each line shows its old level or already 0 (R157, V76, log entry 9). -/
def State.resetEntries (s : State) : List XferEvent :=
  if s.lines.e then
    [.entry (s.lines.rs && Config.freeResetRs s.resets)
      (s.lines.dataNibble &&& Config.freeResetNibble s.resets)]
  else []

/-- The state after `rst`: the values of R24 with the run's `CNT_RESET`; a model's traces and mark go on (R21), the
run's parameters stay (R22, R158), and `conv_due`, which R24 gives no value, is free. -/
def State.afterReset (s : State) : State :=
  { State.reset with
    cnt := ⟨s.cfg.cntReset, s.cfg.cntReset, s.cfg.cntReset⟩
    convDue := Config.freeResetConvDue s.resets
    lineTrace := s.lineTrace
    xferTrace := s.xferTrace ++ s.resetEntries
    mark := s.mark
    rdValue := s.rdValue
    nibbles := s.nibbles
    resets := s.resets + 1
    cfg := s.cfg
    txt := s.txt
    inp := s.inp
    script := s.script }

/-- `RST` (R155, R157). -/
def execRst (s : State) : Host.Outcome State Fault Refusal := .next s.afterReset

end Sys2Proof.Machine
end

