-- ==== Sys2Proof/Machine/Lines.lean ====
section
/-!
DEFINITION. The line primitives and the two bus primitives as instructions of the table (spec/40_pin_primitives.md,
R77, R78). They are not host operations (R72): the sequencer runs them as micro-steps of an operation.
-/

namespace Sys2Proof.Machine

/-- `LINE.SET L` (R65). -/
def execLineSet (l : Line) (s : State) : Host.Outcome State Fault Refusal := .next (s.driveLine true l)

/-- `LINE.CLR L` (R66). -/
def execLineClr (l : Line) (s : State) : Host.Outcome State Fault Refusal := .next (s.driveLine false l)

/-- `LINE.TGL L` (R67). -/
def execLineTgl (l : Line) (s : State) : Host.Outcome State Fault Refusal :=
  .next (s.driveLine (!s.lines.get l) l)

/-- `LINE.RD k` (R68): no hardware state changes; the level returned is kept in `rdValue` (log entry 17). -/
def execLineRd (k : Button) (s : State) : Host.Outcome State Fault Refusal :=
  .next { s with rdValue := s.readIn k }

/-- `SendNibble(n)` (R77): its eight micro-steps, with nothing in between (log entry 19). -/
def execSendNibble (n : Nibble) (s : State) : Host.Outcome State Fault Refusal :=
  .next (s.applyAll (nibbleCode n))

/-- `SendByte(b)` (R78): its seventeen micro-steps, with nothing in between (log entry 19). -/
def execSendByte (b : Byte) (s : State) : Host.Outcome State Fault Refusal :=
  .next (s.applyAll (byteCode b))

end Sys2Proof.Machine
end

