-- ==== Sys2Proof/Machine/Reserved.lean ====
section
/-!
DEFINITION. The reserved opcodes. The hardware defines nothing for them, and the spec has a model refuse the word and
give it no effect (R50, R147).
-/

namespace Sys2Proof.Machine

/-- Reserved opcode 0x0 (R50). -/
def execReserved0 (rest : BitVec 60) (s : State) : Host.Outcome State Fault Refusal :=
  s.refuseReserved (wordR 0x0 rest)

/-- Reserved opcode 0x7 (R50). -/
def execReserved7 (rest : BitVec 60) (s : State) : Host.Outcome State Fault Refusal :=
  s.refuseReserved (wordR 0x7 rest)

/-- Reserved opcode 0xA (R50). -/
def execReservedA (rest : BitVec 60) (s : State) : Host.Outcome State Fault Refusal :=
  s.refuseReserved (wordR 0xA rest)

/-- Reserved opcode 0xB (R50). -/
def execReservedB (rest : BitVec 60) (s : State) : Host.Outcome State Fault Refusal :=
  s.refuseReserved (wordR 0xB rest)

/-- Reserved opcode 0xC (R50). -/
def execReservedC (rest : BitVec 60) (s : State) : Host.Outcome State Fault Refusal :=
  s.refuseReserved (wordR 0xC rest)

/-- Reserved opcode 0xD (R50). -/
def execReservedD (rest : BitVec 60) (s : State) : Host.Outcome State Fault Refusal :=
  s.refuseReserved (wordR 0xD rest)

/-- Reserved opcode 0xE (R50). -/
def execReservedE (rest : BitVec 60) (s : State) : Host.Outcome State Fault Refusal :=
  s.refuseReserved (wordR 0xE rest)

/-- Reserved opcode 0xF (R50). -/
def execReservedF (rest : BitVec 60) (s : State) : Host.Outcome State Fault Refusal :=
  s.refuseReserved (wordR 0xF rest)

end Sys2Proof.Machine
end

