-- ==== Sys2Proof/Machine/Text.lean ====
section
/-!
DEFINITION. `LCD.GOTOXY`, `LCD.WRSTR`, `LCD.WRNUM` (spec/42_lcd_text.md).
-/

namespace Sys2Proof.Machine

/-- `LCD.GOTOXY col, row` (R95 to R97). -/
def execLcdGotoxy (col row : Byte) (s : State) : Host.Outcome State Fault Refusal :=
  s.gate <|
    if columnOk col row then
      .next (s.start (wordXY 0x4 col row) (busCode (commandCode (addrCommand s.cfg (displayAddr col row)))))
    else .refused (.columnRange col row)

/-- `LCD.WRSTR addr` (R98): the loop starts with the read of its first character. -/
def execLcdWrstr (addr : BitVec 16) (s : State) : Host.Outcome State Fault Refusal :=
  s.issue (wordA 0x5 addr) [.text addr.toNat]

/-- `LCD.WRNUM value, width, fill, base` (R100, R103); the buffer takes no micro-step. A bit above `VALUE_BITS` is one
the format does not use, so the word is reserved (R46, R49, R50, log entry 28). -/
def execLcdWrnum (value : BitVec 32) (width fill base : Byte) (s : State) : Host.Outcome State Fault Refusal :=
  s.gate <|
    if valueOk s.cfg value then
      if baseOk s.cfg base then
        if fillOk width fill then
          .next (s.start (wordN 0x6 value width fill base)
            (busCode (bufferCode (formatBuffer value.toNat width.toNat fill base.toNat))))
        else .refused .nulFill
      else .refused (.base base)
    else .refused (.reservedRequest (wordN 0x6 value width fill base))

end Sys2Proof.Machine
end

