-- ==== Sys2Proof/Machine/Dispatch.lean ====
section
/-!
DEFINITION. The dispatch: one arm for each row of spec/opcode_table.json.
-/

namespace Sys2Proof.Machine

def exec (i : Instr) (s : State) : Host.Outcome State Fault Refusal :=
  match i with
  | .lcdInit => Sys2Proof.Machine.execLcdInit s
  | .lcdCmd byte => Sys2Proof.Machine.execLcdCmd byte s
  | .lcdChr byte => Sys2Proof.Machine.execLcdChr byte s
  | .lcdGotoxy col row => Sys2Proof.Machine.execLcdGotoxy col row s
  | .lcdWrstr addr => Sys2Proof.Machine.execLcdWrstr addr s
  | .lcdWrnum value width fill base => Sys2Proof.Machine.execLcdWrnum value width fill base s
  | .btnPressed k => Sys2Proof.Machine.execBtnPressed k s
  | .btnRdcnt k => Sys2Proof.Machine.execBtnRdcnt k s
  | .reserved0 rest => Sys2Proof.Machine.execReserved0 rest s
  | .reserved7 rest => Sys2Proof.Machine.execReserved7 rest s
  | .reservedA rest => Sys2Proof.Machine.execReservedA rest s
  | .reservedB rest => Sys2Proof.Machine.execReservedB rest s
  | .reservedC rest => Sys2Proof.Machine.execReservedC rest s
  | .reservedD rest => Sys2Proof.Machine.execReservedD rest s
  | .reservedE rest => Sys2Proof.Machine.execReservedE rest s
  | .reservedF rest => Sys2Proof.Machine.execReservedF rest s
  | .tickFast in0 in1 in2 => Sys2Proof.Machine.execTickFast in0 in1 in2 s
  | .tickSlow => Sys2Proof.Machine.execTickSlow s
  | .rst => Sys2Proof.Machine.execRst s
  | .lineSet l => Sys2Proof.Machine.execLineSet l s
  | .lineClr l => Sys2Proof.Machine.execLineClr l s
  | .lineTgl l => Sys2Proof.Machine.execLineTgl l s
  | .lineRd k => Sys2Proof.Machine.execLineRd k s
  | .sendNibble n => Sys2Proof.Machine.execSendNibble n s
  | .sendByte b => Sys2Proof.Machine.execSendByte b s
  | .cmdClear => Sys2Proof.Machine.execCmdClear s
  | .cmdHome x => Sys2Proof.Machine.execCmdHome x s
  | .cmdEntry inc d => Sys2Proof.Machine.execCmdEntry inc d s
  | .cmdDispOff => Sys2Proof.Machine.execCmdDispOff s
  | .cmdDispOn => Sys2Proof.Machine.execCmdDispOn s
  | .cmdCursorOn => Sys2Proof.Machine.execCmdCursorOn s
  | .cmdCursorBlink => Sys2Proof.Machine.execCmdCursorBlink s
  | .cmdShiftCurL => Sys2Proof.Machine.execCmdShiftCurL s
  | .cmdShiftCurR => Sys2Proof.Machine.execCmdShiftCurR s
  | .cmdShiftDspL => Sys2Proof.Machine.execCmdShiftDspL s
  | .cmdShiftDspR => Sys2Proof.Machine.execCmdShiftDspR s
  | .cmdFuncset => Sys2Proof.Machine.execCmdFuncset s
  | .cmdSetCgram a => Sys2Proof.Machine.execCmdSetCgram a s
  | .cmdSetDdram a => Sys2Proof.Machine.execCmdSetDdram a s

end Sys2Proof.Machine
end

