-- ==== Sys2Proof/Machine/Sequencer.lean ====
section
/-!
DEFINITION. The sequencer: one micro-step of the operation in progress (R17, R39).
-/

namespace Sys2Proof.Machine

/-- The micro-step of the string loop at text address `a` (R98): the byte read, or the fault past the end, which is
recorded and leaves everything else as it is (R99, R146). -/
def State.textMicro (a : Nat) (rest : List Micro) (s : State) : State :=
  match s.readText a with
  | none => { s with mark := some (.fault (.textOverrun a)) }
  | some ch =>
    if ch = s.cfg.term then s.countStep.goOn rest
    else { s.countStep with todo := busCode (characterCode ch) ++ .text (a + 1) :: rest }

/-- One micro-step `m`, with `rest` left after it. -/
def State.micro (m : Micro) (rest : List Micro) (s : State) : State :=
  match m with
  | .bus p => (p.apply s).countStep.goOn rest
  | .text a => s.textMicro a rest
  | .test k => if s.short k then { s.countStep with todo := .wait k :: rest } else s.countStep.endOp 0
  | .wait k => if s.readCnt k = 0#8 then s.countStep.endOp 1 else s.countStep
  | .load k => s.countStep.endOp (s.readCnt k)

/-- The next micro-step of the operation in progress. -/
def State.microStep (s : State) : State :=
  match s.todo with
  | [] => s.endOp 0
  | m :: rest => s.micro m rest

/-- The sequencer's turn: one micro-step of the operation; idle, it waits for the host (R16). -/
def State.mainMove (s : State) : Host.Outcome State Fault Refusal :=
  s.mainTurn (if s.busy then .next s.microStep else .next s)

end Sys2Proof.Machine
end

