-- ==== Sys2Proof/Machine/Moves.lean ====
section
/-!
DEFINITION. What one step does: the next event of the run's script, or a step of the block's own (R39).
-/

namespace Sys2Proof.Machine

/-- Whether the fast handler is the one to run: its latch is set, and the slow one is not preferred (R132). -/
def State.fastTurn (s : State) : Bool := s.pendFast && !(s.pendSlow && s.cfg.slowFirst)

/-- A step of the block's own: a running handler returns (R135); else a pending tick is taken (R126, R136), the samples
being the levels on the input lines (R128); else the main context goes on. -/
def State.ownMove (s : State) : Host.Outcome State Fault Refusal :=
  if s.inIsr then .next s.leaveHandler
  else if s.fastTurn then execTickFast (s.readIn .up) (s.readIn .enter) (s.readIn .down) s
  else if s.pendSlow then execTickSlow s
  else s.mainMove

/-- What a presented word asks for (R16): a reserved word is refused, any other runs its instruction. -/
def State.request (w : ReqWord) (s : State) : Host.Outcome State Fault Refusal :=
  match decodeRequest w with
  | .ok i => exec i s
  | .error _ => s.refuseReserved w

/-- The host presents a request word: a refusal is recorded in the mark, with no other effect (R21, R147). -/
def State.present (w : ReqWord) (s : State) : Host.Outcome State Fault Refusal :=
  s.mainTurn (s.recordIn (s.request w))

/-- The host clears `conv_due` (R23, R139). While an operation is in progress the host waits for it (R3, R115, R168), so
the flag stays as it is. DESIGN CHOICE (log entry 27): of an idle block, at any step; an event that comes while the host
waits is used up with no effect; after a recorded fault it is that fault. -/
def State.clearDue (s : State) : Host.Outcome State Fault Refusal :=
  s.mainTurn (if s.busy then .next s else .next { s with convDue := false })

/-- One event of the script. Ticks, levels and `rst` come from outside and are always taken; `request` and `clearDue` are
the host's. At which steps of an idle block the host clears its flag is a DESIGN CHOICE (log entry 27). -/
def State.deliver (ev : Event) (s : State) : Host.Outcome State Fault Refusal :=
  match ev with
  | .go => s.ownMove
  | .request w => s.present w
  | .tick src => .next (s.raiseTick src)
  | .levels in0 in1 in2 => .next { s with inp := ⟨in0, in1, in2⟩ }
  | .clearDue => s.clearDue
  | .rst => exec .rst s

/-- The script's next event, or, when the script is at its end, a step of the block's own. -/
def State.turn (s : State) : Host.Outcome State Fault Refusal :=
  match s.script with
  | [] => s.ownMove
  | ev :: rest => State.deliver ev { s with script := rest }

/-- One step of the machine. With a refusal recorded the run goes no further (R147, log entry 14). -/
def State.move (s : State) : Host.Outcome State Fault Refusal :=
  match s.refusal with
  | some r => .refused r
  | none => s.turn

/-- The request word that presents a code: a command byte is presented by `LCD.CMD` (R60). -/
def wordOfCode : Code → ReqWord
  | .request w => w
  | .command b => wordB 0x2 b

end Sys2Proof.Machine
end

