-- ==== Sys2Proof/Machine/Step.lean ====
section
/-!
DEFINITION. The step, and how an instruction is placed before it.
-/

namespace Sys2Proof.Machine

/-- One step. -/
def step (s : State) : Host.Outcome State Fault Refusal := s.move

/-- The state in which the host presents the instruction of these bits at the very next step (log entry 2): its
request word is the next event of the script; an 8-bit command byte is presented by the request `LCD.CMD` of that
byte (R60, log entry 4). -/
def State.withFetchWord (s : State) (nbits w : Nat) : State :=
  { s with script := .request (wordOfCode (tableCode nbits w)) :: s.script }

end Sys2Proof.Machine
end

