-- ==== Sys2Proof/Safety.lean ====
section
/-!
DEFINITION. The terms claims are stated in: runs, the traces the rules ask for, the bus discipline of R83, the
invariant of the machine, and what of the state an interrupt may not touch (R84).
-/

namespace Sys2Proof.Machine

/-! ## Runs -/

/-- `n` steps; the first fault or refusal ends them. It is the run of the host's interface (`run_eq_stepN`). -/
def stepN : Nat → State → Host.Outcome State Fault Refusal
  | 0, s => .next s
  | n + 1, s =>
    match step s with
    | .next t => stepN n t
    | .fault f => .fault f
    | .refused r => .refused r

/-- Nothing comes from outside: no event, no pending tick, no handler. Every step is then the main context's. -/
def State.quiet (s : State) : Bool := s.script.isEmpty && !s.pendFast && !s.pendSlow && !s.inIsr

/-- The host may present a request (R16), and no fault or refusal is recorded (R149). -/
def State.ready (s : State) : Bool := !s.busy && s.mark.isNone

/-- A safe run records no model fault and no refusal (R149). -/
def State.safe (s : State) : Bool := s.mark.isNone

/-! ## What a transfer adds to the transfer trace (R5, R52, R53, R77 to R81) -/

/-- The entries of the transfer trace without the delay markers. -/
def State.transfers (s : State) : List (Level × Nibble) :=
  s.xferTrace.filterMap fun
    | .entry rs n => some (rs, n)
    | .delay _ => none

/-- One nibble with RS at `rs` (R77). -/
def nibbleXfer (rs : Level) (n : Nibble) : List XferEvent := [.delay .tEH, .entry rs n, .delay .tEL]

/-- One byte: high nibble, low nibble, settle delay (R78). -/
def byteXfer (rs : Level) (b : Byte) : List XferEvent :=
  nibbleXfer rs (highNibble b) ++ nibbleXfer rs (lowNibble b) ++ [.delay .tSettle]

/-- Clear (0x01) and home (0x02, 0x03), the bytes with the extra delay (R57). -/
def isClearOrHome (c : Byte) : Bool := c == 0x01#8 || c == 0x02#8 || c == 0x03#8

/-- A command byte (R79). -/
def commandXfer (c : Byte) : List XferEvent :=
  byteXfer false c ++ if isClearOrHome c then [.delay .tLong] else []

/-- A character byte (R80). -/
def charXfer (c : Byte) : List XferEvent := byteXfer true c

/-- The initialization (R81). -/
def initXfer : List XferEvent :=
  nibbleXfer false 0x3 ++ [.delay .tFS1] ++ nibbleXfer false 0x3 ++ [.delay .tFS2] ++
  nibbleXfer false 0x3 ++ [.delay .tFS3] ++ nibbleXfer false 0x2 ++ [.delay .tSettle] ++
  commandXfer 0x28 ++ commandXfer 0x0C ++ commandXfer 0x01

/-- The lines after a byte: RS at `rs`, E low, the low nibble on the data lines (R82). -/
def linesAfter (rs : Level) (b : Byte) : LineFile Level :=
  ⟨rs, false, b.getLsbD 3, b.getLsbD 2, b.getLsbD 1, b.getLsbD 0⟩

/-- The lines after characters were sent from lines `f`: untouched when there was none (R98, R102 (a)). -/
def linesAfterText (f : LineFile Level) (str : List Byte) : LineFile Level :=
  match str.getLast? with
  | none => f
  | some c => linesAfter true c

/-! ## What an operation adds to the line trace -/

/-- A piece of a line trace. The four data writes of a nibble come in any order (R76). -/
inductive Seg where
  | write (l : Line) (v : Level)
  | delay (d : DelayName)
  | nibble (n : Nibble)
  deriving DecidableEq, Repr

/-- The line trace of `SendNibble(n)` with its data writes in the order `o` (R77). -/
def nibbleTrace (o : Equiv.Perm (Fin 4)) (n : Nibble) : List TraceEvent :=
  (List.finRange 4).map (fun j => .write (dataLine (o j)) (nibbleBit n (o j))) ++
    [.write .e true, .delay .tEH, .write .e false, .delay .tEL]

/-- A line trace fits a list of pieces. -/
def fits : List Seg → List TraceEvent → Prop
  | [], l => l = []
  | .write x v :: r, l => ∃ m, l = .write x v :: m ∧ fits r m
  | .delay d :: r, l => ∃ m, l = .delay d :: m ∧ fits r m
  | .nibble n :: r, l => ∃ o m, l = nibbleTrace o n ++ m ∧ fits r m

/-- The pieces of `SendByte(b)` (R78). -/
def byteSegs (b : Byte) : List Seg := [.nibble (highNibble b), .nibble (lowNibble b), .delay .tSettle]

/-- The pieces of `LCD.CMD c` (R79). -/
def commandSegs (c : Byte) : List Seg :=
  .write .rs false :: (byteSegs c ++ if isClearOrHome c then [.delay .tLong] else [])

/-- The pieces of `LCD.CHR c` (R80). -/
def charSegs (c : Byte) : List Seg := .write .rs true :: byteSegs c

/-- The pieces of `LCD.INIT` (R81). -/
def initSegs : List Seg :=
  [.write .rs false, .nibble 0x3, .delay .tFS1, .nibble 0x3, .delay .tFS2, .nibble 0x3, .delay .tFS3,
    .nibble 0x2, .delay .tSettle] ++ commandSegs 0x28 ++ commandSegs 0x0C ++ commandSegs 0x01

/-- The least time a line trace takes: the sum of its delays (R180). -/
def leastDuration (c : Config) (l : List TraceEvent) : Nat :=
  (l.map fun
    | .delay d => c.duration d
    | .write _ _ => 0).sum

/-- From `t`, an undisturbed sequencer is busy for exactly `steps` micro-steps and is then in `u`. -/
def runsTo (steps : Nat) (t u : State) : Prop :=
  stepN steps t = .next u ∧ ∀ m, m < steps → ∃ v, stepN m t = .next v ∧ v.busy = true

/-- In `s` the request `i`, with request word `w`, is accepted, and after exactly `steps` micro-steps it has ended with
result 0: the traces have gained what `xs` and `segs` say, the lines are `f`, and nothing else has changed but
the sequencer's own bookkeeping. -/
def sendsFrom (s : State) (i : Instr) (w : ReqWord) (steps : Nat) (f : LineFile Level) (xs : List XferEvent)
    (segs : List Seg) : Prop :=
  ∃ t u l, exec i s = .next t ∧ runsTo steps t u ∧ fits segs l ∧
    u = { s with
      lines := f, busy := false, req := w, upc := steps, todo := [], result := 0,
      lineTrace := s.lineTrace ++ l, xferTrace := s.xferTrace ++ xs, nibbles := u.nibbles }

/-- From `s` the request `i` is accepted and runs to its end undisturbed, and the delays in what the run adds to the line
trace sum to `d` (R180). -/
def runTakes (s : State) (i : Instr) (d : Nat) : Prop :=
  ∃ n t u l, exec i s = .next t ∧ runsTo n t u ∧ u.busy = false ∧ u.lineTrace = s.lineTrace ++ l ∧
    leastDuration s.cfg l = d

/-- The word of a format B request (R47). -/
def byteRequest (op c : Nat) : ReqWord := BitVec.ofNat 64 (op * 2 ^ 60 + c)

/-- In every state in which the host may present it and nothing disturbs it, the request `i` sends the command
byte `c` (R79). -/
def sendsCommand (i : Instr) (c : Byte) : Prop :=
  ∀ s : State, s.quiet = true → s.ready = true →
    sendsFrom s i (byteRequest 2 c.toNat) (if isClearOrHome c then 19 else 18) (linesAfter false c)
      (commandXfer c) (commandSegs c)

/-- The instructions the host presents as requests: the operations and the symbolic commands. -/
def isRequest : Instr → Bool
  | .lcdInit | .lcdCmd _ | .lcdChr _ | .lcdGotoxy _ _ | .lcdWrstr _ | .lcdWrnum _ _ _ _ => true
  | .btnPressed _ | .btnRdcnt _ => true
  | .cmdClear | .cmdHome _ | .cmdEntry _ _ | .cmdDispOff | .cmdDispOn | .cmdCursorOn => true
  | .cmdCursorBlink | .cmdShiftCurL | .cmdShiftCurR | .cmdShiftDspL | .cmdShiftDspR => true
  | .cmdFuncset | .cmdSetCgram _ | .cmdSetDdram _ => true
  | .reserved0 _ | .reserved7 _ | .reservedA _ | .reservedB _ => false
  | .reservedC _ | .reservedD _ | .reservedE _ | .reservedF _ => false
  | .tickFast _ _ _ | .tickSlow | .rst => false
  | .lineSet _ | .lineClr _ | .lineTgl _ | .lineRd _ | .sendNibble _ | .sendByte _ => false

/-- The word that presents a request (R48, R60). -/
def requestWord (i : Instr) : Option ReqWord := (encode i).map wordOfCode

/-! ## The formatter's closed form (R101) -/

/-- The number of digits of a value; 0 has one. -/
def digitCount (base v : Nat) : Nat := max 1 (Nat.digits base v).length

/-- The character at position `i` of the field: a fill while the digits do not reach it, else the digit (R101). -/
def fieldChar (value width : Nat) (fill : Byte) (base i : Nat) : Byte :=
  if i + digitCount base value < width then fill
  else digitChar (value / base ^ (width - 1 - i) % base)

/-- The field (R101). -/
def fieldText (value width : Nat) (fill : Byte) (base : Nat) : List Byte :=
  (List.range width).map (fieldChar value width fill base)

/-- The base address of a row (R54): 0x00, 0x40, 0x14, and 0x54 for every row from 3 on (R96). -/
def rowStart (row : Byte) : Nat :=
  if row.toNat = 0 then 0x00 else if row.toNat = 1 then 0x40 else if row.toNat = 2 then 0x14 else 0x54

/-- The text at an address, up to its terminator or as far as it is looked at (R98). -/
def textAt (s : State) (a : Nat) (str : List Byte) : Prop :=
  ∀ j (h : j < str.length), s.readText (a + j) = some str[j] ∧ str[j] ≠ s.cfg.term

/-! ## The bus discipline (R83) -/

/-- The rest of an operation keeps the discipline, E being at level `e`: E rises only from 0 and falls only from 1, RS and
the data lines are written and anything but a delay is done only while E is 0, and E ends low. -/
def strobeOk : Level → List Micro → Bool
  | e, [] => !e
  | e, .bus (.line v .e) :: r => (v != e) && strobeOk v r
  | e, .bus (.line _ _) :: r => !e && strobeOk e r
  | e, .bus (.data _ _) :: r => !e && strobeOk e r
  | e, .bus (.delay _) :: r => strobeOk e r
  | e, .text _ :: r => !e && strobeOk e r
  | e, .test _ :: r => !e && strobeOk e r
  | e, .wait _ :: r => !e && strobeOk e r
  | e, .load _ :: r => !e && strobeOk e r

/-- What every step keeps, from whatever state it holds in. -/
structure State.Inv (s : State) : Prop where
  /-- R83. -/
  strobe : strobeOk s.lines.e s.todo = true
  /-- Idle, the sequencer has nothing left to do (R16, R17). -/
  idle : s.busy = false → s.todo = []
  /-- Between two steps no handler is running (R39, R135). -/
  noIsr : s.inIsr = false
  /-- The text content is canonical (R31). -/
  text : Memory.wf s.cfg.txtSize s.txt = true
  /-- The six lines are outputs, the three buttons inputs (R69). -/
  dirs : s.lineDir = ⟨.output, .output, .output, .output, .output, .output⟩ ∧
    s.inDir = ⟨.input, .input, .input⟩

/-! ## What an interrupt may not touch (R84, R134) -/

/-- The main context's side of the state: lines, sequencer, traces, mark. -/
structure MainView where
  lines : LineFile Level
  lineDir : LineFile Dir
  busy : Bool
  req : ReqWord
  upc : Nat
  todo : List Micro
  result : Byte
  lineTrace : List TraceEvent
  xferTrace : List XferEvent
  mark : Option Mark
  nibbles : Nat
  cfg : Config
  txt : List Host.Cell
  deriving DecidableEq, Repr

/-- The main context's side of a state. -/
def State.mainView (s : State) : MainView where
  lines := s.lines
  lineDir := s.lineDir
  busy := s.busy
  req := s.req
  upc := s.upc
  todo := s.todo
  result := s.result
  lineTrace := s.lineTrace
  xferTrace := s.xferTrace
  mark := s.mark
  nibbles := s.nibbles
  cfg := s.cfg
  txt := s.txt

/-- The same state with nothing from outside. -/
def State.alone (s : State) : State :=
  { s with script := [], pendFast := false, pendSlow := false, inIsr := false }

/-- A micro-step that reads no counter: all those of the display operations. -/
def Micro.readsNoCounter : Micro → Bool
  | .bus _ => true
  | .text _ => true
  | .test _ => false
  | .wait _ => false
  | .load _ => false

/-- An event that is no request and no reset. -/
def Event.onlyInterrupts : Event → Bool
  | .go => true
  | .tick _ => true
  | .levels _ _ _ => true
  | .clearDue => true
  | .request _ => false
  | .rst => false

/-- An event under which button `k` stays pressed, and that is no request and no reset. -/
def Event.keepsPressed (k : Button) : Event → Bool
  | .go => true
  | .tick _ => true
  | .levels a b c => (PerButton.mk a b c).get k == false
  | .clearDue => true
  | .request _ => false
  | .rst => false

/-! ## Reserved words (R50), by arithmetic on the word -/

/-- The opcode of a word. -/
def opOf (w : ReqWord) : Nat := w.toNat / 2 ^ 60

/-- The bits of a word from `lo` up to, not including, `hi`. -/
def bitsOf (w : ReqWord) (lo hi : Nat) : Nat := w.toNat / 2 ^ lo % 2 ^ (hi - lo)

/-- A word is reserved: opcode 0, 7 or A to F; a "must be 0" bit that is 1, a bit above the width `VALUE_BITS` of the
formatter's value among them (log entry 28); or format K with `k = 3` (R46 to R50). -/
def reservedWord (c : Config) (w : ReqWord) : Prop :=
  opOf w = 0 ∨ opOf w = 7 ∨ 10 ≤ opOf w ∨
  (opOf w = 1 ∧ bitsOf w 0 60 ≠ 0) ∨
  ((opOf w = 2 ∨ opOf w = 3) ∧ bitsOf w 8 60 ≠ 0) ∨
  ((opOf w = 4 ∨ opOf w = 5) ∧ bitsOf w 16 60 ≠ 0) ∨
  (opOf w = 6 ∧ (bitsOf w 56 60 ≠ 0 ∨ 2 ^ c.valueBits ≤ bitsOf w 0 32)) ∨
  ((opOf w = 8 ∨ opOf w = 9) ∧ (bitsOf w 2 60 ≠ 0 ∨ bitsOf w 0 2 = 3))

end Sys2Proof.Machine
end

