-- ==== Sys2Proof/Certificates/Slice0/Obligations.lean ====
section
/-!
DEFINITION. The statements for the provers.
-/

open Sys2Proof Sys2Proof.Machine

/-! ## Encoding -/

/-- R46 to R50, R56: decoding the code of a well-formed instruction gives the instruction back, every operand at every
value the encoding admits. -/
def Obligations.DecodeOfEncodeIsIdentity : Prop :=
  ∀ (i : Instr) (c : Code), i.wellFormed = true → encode i = some c → decode c = .ok i

/-- R46 to R50, R56: whatever the decoder accepts is well-formed and is encoded as the code it was read from. -/
def Obligations.EncodeOfDecodeIsIdentity : Prop :=
  ∀ (c : Code) (i : Instr), decode c = .ok i → encode i = some c ∧ i.wellFormed = true

/-- Words of spec/95_test_vectors.md, one or more of each format, and the command bytes of R56. -/
def Obligations.TestVectorWordsDecode : Prop :=
  decode (.request 0x1000000000000000) = .ok .lcdInit ∧
  decode (.request 0x2000000000000001) = .ok (.lcdCmd 0x01) ∧
  decode (.request 0x30000000000000DF) = .ok (.lcdChr 0xDF) ∧
  decode (.request 0x4000000000000105) = .ok (.lcdGotoxy 5 1) ∧
  decode (.request 0x5000000000000010) = .ok (.lcdWrstr 0x0010) ∧
  decode (.request 0x600A200300000017) = .ok (.lcdWrnum 23 3 0x20 10) ∧
  decode (.request 0x8000000000000002) = .ok (.btnPressed 2) ∧
  decode (.request 0x9000000000000000) = .ok (.btnRdcnt 0) ∧
  decode (.request 0x0000000000000000) = .ok (.reserved0 0) ∧
  decode (.request 0x1000000000000001) = .error (.mustBeZero 0x1000000000000001) ∧
  decode (.request 0x8000000000000003) = .error (.reservedButton 0x8000000000000003) ∧
  decode (.command 0x03) = .ok (.cmdHome 1) ∧
  decode (.command 0x06) = .ok (.cmdEntry 1 0) ∧
  decode (.command 0x28) = .ok .cmdFuncset ∧
  decode (.command 0xC5) = .ok (.cmdSetDdram 0x45)

/-- R50: a reserved word presented to an idle block is refused by that word. The step records the refusal and has no
other effect, and the step after it is the refusal. Which bits of a value are unused follows `VALUE_BITS` (log
entry 28). -/
def Obligations.ReservedWordIsRefused : Prop :=
  ∀ (s : State) (w : ReqWord) (rest : List Event),
    s.script = .request w :: rest → s.busy = false → s.mark = none → reservedWord s.cfg w →
    let t := { s with script := rest, mark := some (.refusal (.reservedRequest w)) }
    step s = .next t ∧ step t = .refused (.reservedRequest w)

/-- R48, R50: a word that is not reserved is read as one of the host's operations. -/
def Obligations.UnreservedWordNamesAnOperation : Prop :=
  ∀ (c : Config) (w : ReqWord), ¬ reservedWord c w → ∃ i, decodeRequest w = .ok i ∧ i.wellFormed = true ∧ isRequest i = true

/-- R148: the check for `busy` comes before that for a reserved word, that before the operation's own, and the
formatter's check of the base before that of the fill. The bounds of the column, the base and the fill are those of R97
and R103; the largest base is the parameter `maxBase` (log entry 21), and a value wider than `VALUE_BITS` makes the word
a reserved one (log entry 28). A refusal comes before any micro-step, and no instruction raises the text fault by itself:
that takes a later micro-step. -/
def Obligations.OrderOfRefusals : Prop :=
  (∀ (s : State) (w : ReqWord) (rest : List Event),
    s.script = .request w :: rest → s.busy = true → s.mark = none →
    step s = .next { s with script := rest, mark := some (.refusal .issueWhileBusy) }) ∧
  (∀ (s : State) (w : ReqWord) (rest : List Event),
    s.script = .request w :: rest → s.busy = false → s.mark = none → reservedWord s.cfg w →
    step s = .next { s with script := rest, mark := some (.refusal (.reservedRequest w)) }) ∧
  (∀ (s : State) (col row : Byte), s.ready = true → 0x7F < rowStart row + col.toNat →
    exec (.lcdGotoxy col row) s = .refused (.columnRange col row)) ∧
  (∀ (s : State) (value : BitVec 32) (width fill base : Byte), s.ready = true →
    2 ^ s.cfg.valueBits ≤ value.toNat →
    exec (.lcdWrnum value width fill base) s = .refused (.reservedRequest (BitVec.ofNat 64
      (6 * 2 ^ 60 + base.toNat * 2 ^ 48 + fill.toNat * 2 ^ 40 + width.toNat * 2 ^ 32 + value.toNat)))) ∧
  (∀ (s : State) (value : BitVec 32) (width fill base : Byte), s.ready = true →
    value.toNat < 2 ^ s.cfg.valueBits → (base.toNat < 2 ∨ s.cfg.maxBase < base.toNat) →
    exec (.lcdWrnum value width fill base) s = .refused (.base base)) ∧
  (∀ (s : State) (value : BitVec 32) (width fill base : Byte), s.ready = true →
    value.toNat < 2 ^ s.cfg.valueBits → 2 ≤ base.toNat → base.toNat ≤ s.cfg.maxBase → fill = 0 → width ≠ 0 →
    exec (.lcdWrnum value width fill base) s = .refused .nulFill) ∧
  (∀ (i : Instr) (s : State) (f : Fault), s.mark = none → exec i s ≠ .fault f)

/-- R50, R147: the reserved opcodes and the reserved button index stop by name, with the word that was presented. -/
def Obligations.ReservedInstructionsStop : Prop :=
  ∀ s : State, s.busy = false → ∀ r : BitVec 60,
    exec (.reserved0 r) s = .refused (.reservedRequest (0x0#4 ++ r)) ∧
    exec (.reserved7 r) s = .refused (.reservedRequest (0x7#4 ++ r)) ∧
    exec (.reservedA r) s = .refused (.reservedRequest (0xA#4 ++ r)) ∧
    exec (.reservedB r) s = .refused (.reservedRequest (0xB#4 ++ r)) ∧
    exec (.reservedC r) s = .refused (.reservedRequest (0xC#4 ++ r)) ∧
    exec (.reservedD r) s = .refused (.reservedRequest (0xD#4 ++ r)) ∧
    exec (.reservedE r) s = .refused (.reservedRequest (0xE#4 ++ r)) ∧
    exec (.reservedF r) s = .refused (.reservedRequest (0xF#4 ++ r)) ∧
    exec (.btnPressed 3) s = .refused (.reservedRequest 0x8000000000000003) ∧
    exec (.btnRdcnt 3) s = .refused (.reservedRequest 0x9000000000000003)

/-! ## The step -/

/-- R16, R147: with nothing recorded, a presented word that decodes runs its instruction, the event being used up, and
placing a row's bits makes the very next step run it. What the step adds around `exec` is that a refusal is recorded
(`RefusalIsRecordedAndEndsTheRun` says how). -/
def Obligations.StepRunsTheDecodedInstruction : Prop :=
  (∀ (s : State) (w : ReqWord) (i : Instr) (rest : List Event),
    s.script = .request w :: rest → s.mark = none → decodeRequest w = .ok i →
    step s = State.recordIn { s with script := rest } (exec i { s with script := rest })) ∧
  (∀ (s : State) (w : Nat) (i : Instr), s.mark = none →
    decodeTableWord 64 w = some i → step (s.withFetchWord 64 w) = s.recordIn (exec i s)) ∧
  (∀ (s : State) (b : Byte) (i : Instr), s.mark = none →
    decodeTableWord 8 b.toNat = some i → step (s.withFetchWord 8 b.toNat) = s.recordIn (exec i s))

/-- R21, R147: when a presented instruction answers a next state the step is that state; when it is refused the step
records the refusal and changes nothing else, and from then on every step, whatever the script says, is that refusal
(log entry 14). -/
def Obligations.RefusalIsRecordedAndEndsTheRun : Prop :=
  (∀ (s t : State) (w : ReqWord) (i : Instr) (rest : List Event),
    s.script = .request w :: rest → s.mark = none → decodeRequest w = .ok i →
    exec i { s with script := rest } = .next t → step s = .next t) ∧
  (∀ (s : State) (w : ReqWord) (i : Instr) (rest : List Event) (r : Refusal),
    s.script = .request w :: rest → s.mark = none → decodeRequest w = .ok i →
    exec i { s with script := rest } = .refused r →
    step s = .next { s with script := rest, mark := some (.refusal r) }) ∧
  (∀ (s : State) (r : Refusal), s.mark = some (.refusal r) → step s = .refused r)

/-- R16, R17: accepting a request touches nothing but `req`, `busy`, `upc`, the operation's locals, and `result` when
the operation has no micro-step; the word is latched, `upc` is 0, and while something is left the block is busy. -/
def Obligations.AcceptanceFrame : Prop :=
  ∀ (i : Instr) (s t : State), isRequest i = true → exec i s = .next t →
    t = { s with req := t.req, busy := t.busy, upc := 0, todo := t.todo, result := t.result } ∧
    requestWord i = some t.req ∧
    (t.todo ≠ [] → t.busy = true ∧ t.result = s.result) ∧
    (t.todo = [] → t.busy = false ∧ t.result = 0)

/-! ## Line primitives -/

/-- R65. -/
def Obligations.LineSetForcesOne : Prop :=
  ∀ (l : Line) (s : State), ∃ t, exec (.lineSet l) s = .next t ∧
    t.lines.get l = true ∧ (∀ m, m ≠ l → t.lines.get m = s.lines.get m) ∧
    t = { s with lines := t.lines, lineTrace := s.lineTrace ++ [.write l true] }

/-- R66: with the transfer entry when E falls, and only then. -/
def Obligations.LineClrForcesZero : Prop :=
  ∀ (l : Line) (s : State), ∃ t, exec (.lineClr l) s = .next t ∧
    t.lines.get l = false ∧ (∀ m, m ≠ l → t.lines.get m = s.lines.get m) ∧
    t = { s with
      lines := t.lines
      lineTrace := s.lineTrace ++ [.write l false]
      xferTrace := s.xferTrace ++
        if l = .e ∧ s.lines.e = true then
          [.entry s.lines.rs (BitVec.ofBool s.lines.db7 ++ BitVec.ofBool s.lines.db6 ++
            BitVec.ofBool s.lines.db5 ++ BitVec.ofBool s.lines.db4)]
        else [] }

/-- R67, with R5 for the entry a fall of E makes. -/
def Obligations.LineTglInverts : Prop :=
  ∀ (l : Line) (s : State), ∃ t, exec (.lineTgl l) s = .next t ∧
    t.lines.get l = (!s.lines.get l) ∧ (∀ m, m ≠ l → t.lines.get m = s.lines.get m) ∧
    t = { s with
      lines := t.lines
      lineTrace := s.lineTrace ++ [.write l (!s.lines.get l)]
      xferTrace := s.xferTrace ++
        if l = .e ∧ s.lines.e = true then [.entry s.lines.rs s.lines.dataNibble] else [] }

/-- R68: the level returned is the live one, and no hardware state changes. That the level stands in `rdValue` is the
model's choice (log entry 17). -/
def Obligations.LineRdReturnsTheLiveLevel : Prop :=
  ∀ s : State,
    exec (.lineRd .up) s = .next { s with rdValue := s.inp.up } ∧
    exec (.lineRd .enter) s = .next { s with rdValue := s.inp.enter } ∧
    exec (.lineRd .down) s = .next { s with rdValue := s.inp.down }

/-! ## Bus primitives -/

/-- R77: four data writes in some order, then the pulse; one transfer entry with the nibble; nothing else changes. -/
def Obligations.SendNibblePulsesOnce : Prop :=
  ∀ (n : Nibble) (s : State), ∃ t l, exec (.sendNibble n) s = .next t ∧ fits [.nibble n] l ∧
    t = { s with
      lines := ⟨s.lines.rs, false, n.getLsbD 3, n.getLsbD 2, n.getLsbD 1, n.getLsbD 0⟩
      lineTrace := s.lineTrace ++ l
      xferTrace := s.xferTrace ++ [.delay .tEH, .entry s.lines.rs n, .delay .tEL]
      nibbles := s.nibbles + 1 }

/-- R78: high nibble, low nibble, one settle delay; RS untouched. -/
def Obligations.SendByteSendsHighNibbleFirst : Prop :=
  ∀ (b : Byte) (s : State), ∃ t l, exec (.sendByte b) s = .next t ∧
    fits [.nibble (b.extractLsb' 4 4), .nibble (b.extractLsb' 0 4), .delay .tSettle] l ∧
    t = { s with
      lines := linesAfter s.lines.rs b
      lineTrace := s.lineTrace ++ l
      xferTrace := s.xferTrace ++
        [.delay .tEH, .entry s.lines.rs (b.extractLsb' 4 4), .delay .tEL,
         .delay .tEH, .entry s.lines.rs (b.extractLsb' 0 4), .delay .tEL, .delay .tSettle]
      nibbles := s.nibbles + 2 }

/-! ## Display operations -/

/-- R79. -/
def Obligations.LcdCmdSendsTheCommand : Prop :=
  ∀ c : Byte, sendsCommand (.lcdCmd c) c

/-- R56, R60: each symbolic command is `LCD.CMD` of its byte. -/
def Obligations.SymbolicCommandsSendTheirByte : Prop :=
  sendsCommand .cmdClear 0x01 ∧
  (∀ x : BitVec 1, sendsCommand (.cmdHome x) (0b0000001#7 ++ x)) ∧
  (∀ i d : BitVec 1, sendsCommand (.cmdEntry i d) (0b000001#6 ++ i ++ d)) ∧
  sendsCommand .cmdDispOff 0x08 ∧ sendsCommand .cmdDispOn 0x0C ∧
  sendsCommand .cmdCursorOn 0x0E ∧ sendsCommand .cmdCursorBlink 0x0F ∧
  sendsCommand .cmdShiftCurL 0x10 ∧ sendsCommand .cmdShiftCurR 0x14 ∧
  sendsCommand .cmdShiftDspL 0x18 ∧ sendsCommand .cmdShiftDspR 0x1C ∧
  sendsCommand .cmdFuncset 0x28 ∧
  (∀ a : BitVec 6, sendsCommand (.cmdSetCgram a) (0b01#2 ++ a)) ∧
  (∀ a : BitVec 7, sendsCommand (.cmdSetDdram a) (0b1#1 ++ a))

/-- R80. -/
def Obligations.LcdChrSendsTheCharacter : Prop :=
  ∀ (c : Byte) (s : State), s.quiet = true → s.ready = true →
    sendsFrom s (.lcdChr c) (byteRequest 3 c.toNat) 18 (linesAfter true c) (charXfer c) (charSegs c)

/-- R81, with the values R81 gives the parameters. -/
def Obligations.LcdInitRunsTheSequence : Prop :=
  ∀ s : State, s.quiet = true → s.ready = true →
    s.cfg.fs8Nib = 0x3 → s.cfg.fs4Nib = 0x2 →
    s.cfg.cmdFuncset = 0x28 → s.cfg.cmdDispOn = 0x0C → s.cfg.cmdClear = 0x01 →
    sendsFrom s .lcdInit 0x1000000000000000 92 (linesAfter false 0x01) initXfer initSegs

/-- R54, R95, R96: an admitted cell is sent as 0x80 plus its row's base plus the column, rows from 3 on alike. -/
def Obligations.GotoxySendsTheAddress : Prop :=
  ∀ (col row : Byte) (s : State), s.quiet = true → s.ready = true → s.cfg.cmdSetDdram = 0x80 →
    rowStart row + col.toNat ≤ 0x7F →
    let c := BitVec.ofNat 8 (0x80 + rowStart row + col.toNat)
    sendsFrom s (.lcdGotoxy col row) (BitVec.ofNat 64 (4 * 2 ^ 60 + row.toNat * 2 ^ 8 + col.toNat)) 18
      (linesAfter false c) (byteXfer false c) (.write .rs false :: byteSegs c)

/-- R97: the admitted columns, row by row; any other column is refused. -/
def Obligations.GotoxyColumnDomain : Prop :=
  ∀ (col row : Byte) (s : State), s.ready = true →
    (exec (.lcdGotoxy col row) s = .refused (.columnRange col row) ↔
      ¬ ((row.toNat = 0 ∧ col.toNat ≤ 0x7F) ∨ (row.toNat = 1 ∧ col.toNat ≤ 0x3F) ∨
         (row.toNat = 2 ∧ col.toNat ≤ 0x6B) ∨ (3 ≤ row.toNat ∧ col.toNat ≤ 0x2B)))

/-- R98: the characters up to the terminator are sent in order, in `19 n + 1` micro-steps; the empty string writes
no line. -/
def Obligations.WrstrStreamsTheString : Prop :=
  ∀ (addr : BitVec 16) (str : List Byte) (s : State), s.quiet = true → s.ready = true →
    textAt s addr.toNat str → s.readText (addr.toNat + str.length) = some s.cfg.term →
    sendsFrom s (.lcdWrstr addr) (BitVec.ofNat 64 (5 * 2 ^ 60 + addr.toNat)) (19 * str.length + 1)
      (linesAfterText s.lines str)
      (str.flatMap charXfer) (str.flatMap charSegs)

/-- R99, R146: a string that meets no terminator is sent up to the end of the text space, then the fault is recorded at
the read of `TXT_SIZE`, the operation stays unfinished, and the main context stops with the fault. -/
def Obligations.WrstrOverrunsAtTheEnd : Prop :=
  ∀ (addr : BitVec 16) (str : List Byte) (s : State), s.quiet = true → s.ready = true →
    textAt s addr.toNat str → s.cfg.txtSize ≤ addr.toNat + str.length →
    ∃ t u l, exec (.lcdWrstr addr) s = .next t ∧ stepN (19 * str.length + 1) t = .next u ∧
      fits (str.flatMap charSegs) l ∧
      u = { s with
        lines := (linesAfterText s.lines str)
        busy := true
        req := BitVec.ofNat 64 (5 * 2 ^ 60 + addr.toNat)
        upc := 19 * str.length
        todo := [.text (addr.toNat + str.length)]
        lineTrace := s.lineTrace ++ l
        xferTrace := s.xferTrace ++ str.flatMap charXfer
        mark := some (.fault (.textOverrun (addr.toNat + str.length)))
        nibbles := u.nibbles } ∧
      step u = .fault (.textOverrun (addr.toNat + str.length))

/-- R100, R101: in the admitted domain (the largest base is the parameter `maxBase`, log entry 21, and a value has
`VALUE_BITS` bits, log entry 28) exactly `width` characters are sent, the right-justified digits with fills to their left,
truncated to the low-order digits; width 0 writes no line. -/
def Obligations.WrnumSendsTheField : Prop :=
  ∀ (value : BitVec 32) (width fill base : Byte) (s : State), s.quiet = true → s.ready = true →
    value.toNat < 2 ^ s.cfg.valueBits → 2 ≤ base.toNat → base.toNat ≤ s.cfg.maxBase → (fill ≠ 0 ∨ width = 0) →
    let txt := fieldText value.toNat width.toNat fill base.toNat
    sendsFrom s (.lcdWrnum value width fill base)
      (BitVec.ofNat 64
        (6 * 2 ^ 60 + base.toNat * 2 ^ 48 + fill.toNat * 2 ^ 40 + width.toNat * 2 ^ 32 + value.toNat))
      (18 * width.toNat)
      (linesAfterText s.lines txt)
      (txt.flatMap charXfer) (txt.flatMap charSegs)

/-- R101: the buffer the formatter's loop builds is the closed form, for every base from 2 on. -/
def Obligations.FormatterLoopEqualsClosedForm : Prop :=
  ∀ (value width base : Nat) (fill : Byte), 2 ≤ base →
    formatBuffer value width fill base = fieldText value width fill base

/-- R102 (i): exactly `width` characters, none of them null. -/
def Obligations.FormatterFieldHasNoNull : Prop :=
  ∀ (value width base : Nat) (fill : Byte), 2 ≤ base → base ≤ 36 → fill ≠ 0 →
    (formatBuffer value width fill base).length = width ∧ (0 : Byte) ∉ formatBuffer value width fill base

/-- R103: bases below 2 and above 36 (log entry 21) are refused, and a null fill with a positive width. -/
def Obligations.WrnumDomain : Prop :=
  ∀ (value : BitVec 32) (width fill base : Byte) (s : State), s.ready = true → s.cfg.maxBase = 36 →
    value.toNat < 2 ^ s.cfg.valueBits →
    (exec (.lcdWrnum value width fill base) s = .refused (.base base) ↔ base.toNat < 2 ∨ 36 < base.toNat) ∧
    (exec (.lcdWrnum value width fill base) s = .refused .nulFill ↔
      (2 ≤ base.toNat ∧ base.toNat ≤ 36 ∧ fill = 0 ∧ 0 < width.toNat))

/-- R86: the clear command twice sends its byte twice, each time with both settle delays, and leaves the lines as once
does. -/
def Obligations.ClearTwiceLeavesTheLinesAsOnce : Prop :=
  ∀ s : State, s.quiet = true → s.ready = true →
    ∃ t u v w, exec (.lcdCmd 0x01) s = .next t ∧ stepN 19 t = .next u ∧
      exec (.lcdCmd 0x01) u = .next v ∧ stepN 19 v = .next w ∧ w.lines = u.lines ∧
      w.transfers = s.transfers ++ [(false, 0x0), (false, 0x1), (false, 0x0), (false, 0x1)] ∧
      w.xferTrace = s.xferTrace ++ commandXfer 0x01 ++ commandXfer 0x01

/-- R180: the least durations, the sums of the delays in what the run of each operation adds to the line trace, whatever
the values of the delays. -/
def Obligations.LeastDurations : Prop :=
  (∀ (s : State) (n : Nibble), ∃ t l, exec (.sendNibble n) s = .next t ∧ t.lineTrace = s.lineTrace ++ l ∧
    leastDuration s.cfg l = s.cfg.tEH + s.cfg.tEL) ∧
  (∀ (s : State) (b : Byte), ∃ t l, exec (.sendByte b) s = .next t ∧ t.lineTrace = s.lineTrace ++ l ∧
    leastDuration s.cfg l = 2 * (s.cfg.tEH + s.cfg.tEL) + s.cfg.tSettle) ∧
  (∀ s : State, s.quiet = true → s.ready = true →
    let chr := 2 * (s.cfg.tEH + s.cfg.tEL) + s.cfg.tSettle
    (∀ c : Byte, runTakes s (.lcdChr c) chr) ∧
    (∀ c : Byte, runTakes s (.lcdCmd c) (chr + if isClearOrHome c then s.cfg.tLong else 0)) ∧
    (∀ col row : Byte, s.cfg.cmdSetDdram = 0x80 → rowStart row + col.toNat ≤ 0x7F →
      runTakes s (.lcdGotoxy col row) chr) ∧
    (s.cfg.fs8Nib = 0x3 → s.cfg.fs4Nib = 0x2 →
      s.cfg.cmdFuncset = 0x28 → s.cfg.cmdDispOn = 0x0C → s.cfg.cmdClear = 0x01 →
      runTakes s .lcdInit (10 * (s.cfg.tEH + s.cfg.tEL) + s.cfg.tFS1 + s.cfg.tFS2 + s.cfg.tFS3 + 4 * s.cfg.tSettle +
        s.cfg.tLong)) ∧
    (∀ (addr : BitVec 16) (str : List Byte),
      textAt s addr.toNat str → s.readText (addr.toNat + str.length) = some s.cfg.term →
      runTakes s (.lcdWrstr addr) (str.length * chr)) ∧
    (∀ (value : BitVec 32) (width fill base : Byte),
      value.toNat < 2 ^ s.cfg.valueBits → 2 ≤ base.toNat → base.toNat ≤ s.cfg.maxBase → (fill ≠ 0 ∨ width = 0) →
      runTakes s (.lcdWrnum value width fill base) (width.toNat * chr)))

/-! ## Button operations -/

/-- R116: one micro-step; the counter's value, and the counter unchanged; `k = 3` is reserved. -/
def Obligations.RdcntReturnsTheCounter : Prop :=
  ∀ (s : State), s.quiet = true → s.ready = true →
    (∀ (k : BitVec 2) (c : Byte),
      ((k = 0 ∧ c = s.cnt.up) ∨ (k = 1 ∧ c = s.cnt.enter) ∨ (k = 2 ∧ c = s.cnt.down)) →
      ∃ t u, exec (.btnRdcnt k) s = .next t ∧ runsTo 1 t u ∧
        u = { s with
          req := BitVec.ofNat 64 (9 * 2 ^ 60 + k.toNat), upc := 1, todo := [], busy := false, result := c }) ∧
    exec (.btnRdcnt 3) s = .refused (.reservedRequest 0x9000000000000003)

/-- R111, R112: below the threshold the operation returns 0 after its one read; at or above it, the operation is still busy
after that read and waits on the same counter. -/
def Obligations.PressedTestsTheThreshold : Prop :=
  ∀ (s : State), s.quiet = true → s.ready = true →
    ∀ (k : BitVec 2) (b : Button) (c : Byte),
      ((k = 0 ∧ b = .up ∧ c = s.cnt.up) ∨ (k = 1 ∧ b = .enter ∧ c = s.cnt.enter) ∨
        (k = 2 ∧ b = .down ∧ c = s.cnt.down)) →
      ∃ t u, exec (.btnPressed k) s = .next t ∧ t.busy = true ∧ step t = .next u ∧
        u = { s with
          req := BitVec.ofNat 64 (8 * 2 ^ 60 + k.toNat)
          upc := 1
          busy := decide (s.cfg.shortTh ≤ c.toNat)
          todo := if s.cfg.shortTh ≤ c.toNat then [.wait b] else []
          result := if s.cfg.shortTh ≤ c.toNat then s.result else 0 }

/-- R113: a read of the wait that finds 0 ends the operation with result 1; any other read changes nothing and the wait goes
on. -/
def Obligations.WaitEndsOnZeroOnly : Prop :=
  ∀ (s : State) (b : Button) (rest : List Micro),
    s.quiet = true → s.busy = true → s.mark = none → s.todo = .wait b :: rest →
    (s.cnt.get b = 0 →
      step s = .next { s with upc := s.upc + 1, result := 1, busy := false, todo := [] }) ∧
    (s.cnt.get b ≠ 0 → step s = .next { s with upc := s.upc + 1 })

/-- R115, R168: while the button stays pressed the wait never ends, however many ticks come and however long it runs, and no
fault is recorded. -/
def Obligations.HeldButtonHangsTheOperation : Prop :=
  ∀ (n : Nat) (s : State) (b : Button) (rest : List Micro),
    s.busy = true → s.mark = none → s.todo = .wait b :: rest → s.cnt.get b ≠ 0 → s.inp.get b = false →
    s.script.all (Event.keepsPressed b) = true →
    ∃ u, stepN n s = .next u ∧ u.busy = true ∧ u.mark = none ∧ u.todo = .wait b :: rest

/-- R113, R170: the first fast tick that samples the line released ends the wait, at the next read. -/
def Obligations.ReleasedSampleEndsTheWait : Prop :=
  ∀ (s : State) (b : Button) (rest : List Micro),
    s.script = [] → s.pendFast = true → s.pendSlow = false → s.inIsr = false →
    s.busy = true → s.mark = none → s.todo = .wait b :: rest → s.inp.get b = true →
    ∃ u, stepN 2 s = .next u ∧ u.busy = false ∧ u.result = 1 ∧ u.cnt.get b = 0

/-- R111, R118 (c): when a wait ends with result 1, in whatever step, the counter was 0 before that step. -/
def Obligations.PressedReportsAfterReadingZero : Prop :=
  ∀ (s t : State) (b : Button) (rest : List Micro),
    s.todo = .wait b :: rest → s.busy = true →
    step s = .next t → t.busy = false → t.result = 1 → s.cnt.get b = 0

/-- R13, R40, R114: a counter changes only by a run of the fast handler, by its sample, or by a reset. -/
def Obligations.OnlyTheSamplerWritesCounters : Prop :=
  ∀ s t : State, step s = .next t →
    t.cnt = s.cnt ∨
    (s.pendFast = true ∧ s.inIsr = false ∧
      ∀ b : Button, t.cnt.get b =
        if s.inp.get b = true then 0 else if s.cnt.get b = 255 then 255 else s.cnt.get b + 1) ∨
    (s.script.head? = some .rst ∧ ∀ b : Button, t.cnt.get b = s.cfg.cntReset)

/-! ## Interrupts -/

/-- R127: each counter is 0 after a released sample and one more, up to 255, after an active one; nothing else changes but
the latch the entry clears. -/
def Obligations.TickFastSamplesTheButtons : Prop :=
  ∀ (a b c : Level) (s : State), s.inIsr = false →
    let next := fun (level : Level) (x : Byte) => if level = true then (0 : Byte) else if x = 255 then 255 else x + 1
    exec (.tickFast a b c) s =
      .next { s with cnt := ⟨next a s.cnt.up, next b s.cnt.enter, next c s.cnt.down⟩, pendFast := false }

/-- R131: the flag is set unconditionally; nothing else changes but the latch the entry clears. -/
def Obligations.TickSlowSetsConvDue : Prop :=
  ∀ s : State, s.inIsr = false →
    exec .tickSlow s = .next { s with convDue := true, pendSlow := false }

/-- R130: while a handler runs, a tick of either source only sets its latch. -/
def Obligations.TicksDoNotNest : Prop :=
  ∀ s : State, s.inIsr = true →
    (∀ a b c : Level, exec (.tickFast a b c) s = .next { s with pendFast := true }) ∧
    exec .tickSlow s = .next { s with pendSlow := true }

/-- R129: ticks that arrive before the handler runs merge into one latch. -/
def Obligations.TicksMergeIntoOneLatch : Prop :=
  ∀ (s : State) (rest : List Event), s.refusal = none →
    (s.script = .tick .fast :: .tick .fast :: rest →
      stepN 2 s = .next { s with pendFast := true, script := rest }) ∧
    (s.script = .tick .slow :: .tick .slow :: rest →
      stepN 2 s = .next { s with pendSlow := true, script := rest })

/-- R126, R128, R136: a pending tick is taken at the block's next own step, before any micro-step, with the live levels as
its samples; the block has its own step at a `go` and, for ever, when the script is at its end. A recorded fault does not
keep a handler from running (R149); with a refusal recorded the run goes no further (log entry 14). -/
def Obligations.PendingTickIsTakenNext : Prop :=
  ∀ s u : State, s.refusal = none → s.inIsr = false →
    ((s.script = [] ∧ u = s) ∨ (∃ rest, s.script = .go :: rest ∧ u = { s with script := rest })) →
    (s.pendFast = true → s.pendSlow = false → step s = exec (.tickFast s.inp.up s.inp.enter s.inp.down) u) ∧
    (s.pendFast = false → s.pendSlow = true → step s = exec .tickSlow u)

/-- R132: with both ticks pending the two handlers run one after the other, and the order makes no difference. -/
def Obligations.BothTicksEitherOrder : Prop :=
  ∀ s : State, s.refusal = none → s.script = [] → s.inIsr = false → s.pendFast = true → s.pendSlow = true →
    ∃ u v, exec (.tickFast s.inp.up s.inp.enter s.inp.down) s = .next u ∧ exec .tickSlow u = .next v ∧
      stepN 2 s = .next v

/-- R40, R139: the main context's side of the state is changed by a request, by a reset, or in a step of the block's own
that is the next micro-step of the operation in progress: never by a handler. -/
def Obligations.HandlersLeaveTheMainContextAlone : Prop :=
  ∀ s t : State, step s = .next t → t.mainView ≠ s.mainView →
    (∃ w, s.script.head? = some (.request w)) ∨ s.script.head? = some .rst ∨
    ((s.script = [] ∨ s.script.head? = some .go) ∧ t.mainView = s.microStep.mainView ∧
      s.inIsr = false ∧ s.pendFast = false ∧ s.pendSlow = false ∧ s.busy = true ∧ s.mark = none)

/-- R84: whatever ticks, levels and flag clears fall between the micro-steps of a display operation, its main context, line
trace and transfer trace among it, goes through the states it goes through undisturbed. -/
def Obligations.DisplayOperationsAreImmuneToInterrupts : Prop :=
  ∀ (n : Nat) (s u : State),
    s.todo.all Micro.readsNoCounter = true → s.script.all Event.onlyInterrupts = true →
    stepN n s = .next u →
    ∃ m v, m ≤ n ∧ stepN m s.alone = .next v ∧ v.mainView = u.mainView

/-- R23, R131, R139, R115: `conv_due` is changed by the slow handler, which sets it, by the host, which clears it while no
operation blocks it, and by a reset; what a reset leaves in it (log entry 11) and at which steps of an idle block the host
may clear it (log entry 27) are the model's choice. -/
def Obligations.ConvDueWriters : Prop :=
  ∀ s t : State, step s = .next t → t.convDue ≠ s.convDue →
    (s.pendSlow = true ∧ s.inIsr = false ∧ t.convDue = true) ∨
    (s.script.head? = some .clearDue ∧ s.mark = none ∧ s.busy = false ∧ t.convDue = false) ∨ s.script.head? = some .rst

/-- R3, R23, R139: an idle host clears its flag and changes nothing else; while an operation is in progress the host waits
for it, and its event is used up with no effect (log entry 27). -/
def Obligations.HostClearsItsFlagOnlyWhileIdle : Prop :=
  ∀ (s : State) (rest : List Event), s.script = .clearDue :: rest → s.mark = none →
    (s.busy = false → step s = .next { s with convDue := false, script := rest }) ∧
    (s.busy = true → step s = .next { s with script := rest })

/-- R115, R168: while the button stays pressed the temperature handling is stalled: a conversion that is due stays due,
however many ticks come and however often the script has the host clear its flag (log entry 27). -/
def Obligations.HeldButtonStallsTheConversion : Prop :=
  ∀ (n : Nat) (s : State) (b : Button) (rest : List Micro),
    s.busy = true → s.mark = none → s.todo = .wait b :: rest → s.cnt.get b ≠ 0 → s.inp.get b = false →
    s.script.all (Event.keepsPressed b) = true → s.convDue = true →
    ∃ u, stepN n s = .next u ∧ u.busy = true ∧ u.convDue = true

/-! ## Reset -/

/-- R155: every register at its reset value, the directions as constructed, idle, no handler running; that the
run's parameters, the line trace, the mark and `rdValue` are kept and the operation's locals are empty is the model's
choice (log entries 10 and 12). -/
def Obligations.RstResetsTheBlock : Prop :=
  ∀ s : State, ∃ t, exec .rst s = .next t ∧
    t.lines = ⟨false, false, false, false, false, false⟩ ∧
    t.lineDir = ⟨.output, .output, .output, .output, .output, .output⟩ ∧ t.inDir = ⟨.input, .input, .input⟩ ∧
    t.cnt = ⟨s.cfg.cntReset, s.cfg.cntReset, s.cfg.cntReset⟩ ∧
    t.busy = false ∧ t.req = 0 ∧ t.upc = 0 ∧ t.todo = [] ∧ t.result = 0 ∧
    t.pendFast = false ∧ t.pendSlow = false ∧ t.inIsr = false ∧
    t.lineTrace = s.lineTrace ∧ t.mark = s.mark ∧ t.rdValue = s.rdValue ∧
    t.cfg = s.cfg ∧ t.txt = s.txt ∧ t.inp = s.inp ∧ t.script = s.script

/-- R157, V76: a reset with E high adds one transfer entry, whose levels were on the lines or have already fallen; with E
low it adds none. -/
def Obligations.RstMidStrobeMayLatchANibble : Prop :=
  ∀ s : State, ∃ t, exec .rst s = .next t ∧
    (s.lines.e = false → t.xferTrace = s.xferTrace) ∧
    (s.lines.e = true → ∃ rs n, t.xferTrace = s.xferTrace ++ [.entry rs n] ∧
      (rs = true → s.lines.rs = true) ∧
      (n.getLsbD 3 = true → s.lines.db7 = true) ∧ (n.getLsbD 2 = true → s.lines.db6 = true) ∧
      (n.getLsbD 1 = true → s.lines.db5 = true) ∧ (n.getLsbD 0 = true → s.lines.db4 = true))

/-- R24: the state after reset, each row of the table that gives a value. -/
def Obligations.ResetStateValues : Prop :=
  State.reset.lines = ⟨false, false, false, false, false, false⟩ ∧
  State.reset.lineDir = ⟨.output, .output, .output, .output, .output, .output⟩ ∧
  State.reset.inDir = ⟨.input, .input, .input⟩ ∧
  State.reset.cnt = ⟨0, 0, 0⟩ ∧ State.reset.busy = false ∧ State.reset.req = 0 ∧ State.reset.upc = 0 ∧
  State.reset.result = 0 ∧ State.reset.pendFast = false ∧ State.reset.pendSlow = false ∧
  State.reset.inIsr = false

/-! ## Invariants -/

/-- The invariant holds after reset. -/
def Obligations.InvariantAtReset : Prop := State.reset.Inv

/-- R83, R31, R69 and the rules the fields of `State.Inv` cite: every step keeps the invariant. -/
def Obligations.EveryStepKeepsTheInvariant : Prop :=
  ∀ s t : State, s.Inv → step s = .next t → t.Inv

/-- R83: while E is high, no step but a reset changes RS or a data line, and E itself changes only by falling. -/
def Obligations.BusIsStableWhileEIsHigh : Prop :=
  ∀ s t : State, s.Inv → s.lines.e = true → step s = .next t → s.script.head? ≠ some .rst →
    t.lines = s.lines ∨ t.lines = { s.lines with e := false }

/-- R22, R31, R43: no step changes the text space or the configuration. -/
def Obligations.TextAndConfigurationNeverChange : Prop :=
  ∀ s t : State, step s = .next t → t.txt = s.txt ∧ t.cfg = s.cfg

/-- R21, R149: the traces start empty and only grow; the mark starts clear, and what is recorded in it is never cleared or
replaced. -/
def Obligations.TracesGrowAndTheMarkStays : Prop :=
  (State.reset.lineTrace = [] ∧ State.reset.xferTrace = [] ∧ State.reset.mark = none) ∧
  ∀ s t : State, step s = .next t →
    s.lineTrace <+: t.lineTrace ∧ s.xferTrace <+: t.xferTrace ∧ (∀ m, s.mark = some m → t.mark = some m)

/-- R149: after a fault the main context, host and sequencer, does not go on, and the fast handler still counts. That the
host's request (log entry 23) and its clearing of `conv_due` (log entry 27) are turns of the main context is the model's
reading, and so is how its turn shows the fault (log entry 13). -/
def Obligations.AfterAFaultOnlyHandlersRun : Prop :=
  ∀ (s : State) (f : Fault), s.mark = some (.fault f) →
    (∀ rest, (s.script = .clearDue :: rest ∨ ∃ w, s.script = .request w :: rest) → step s = .fault f) ∧
    (s.script = [] → s.inIsr = false → s.pendSlow = false →
      (s.pendFast = false → step s = .fault f) ∧
      (s.pendFast = true → ∃ t, step s = .next t ∧ t.mark = some (.fault f) ∧ t.mainView = s.mainView ∧
        ∀ b : Button, t.cnt.get b =
          if s.inp.get b = true then 0 else if s.cnt.get b = 255 then 255 else s.cnt.get b + 1))
end

