-- ==== Sys2Proof/Laws/State.lean ====
section
/-!
SUPPORT. One lemma per field per update of the state, so that no proof unfolds a record update.
-/

namespace Sys2Proof.Machine

/-! ## `driveLine` -/

@[simp] theorem State.driveLine_lines (s : State) (v : Level) (l : Line) : (s.driveLine v l).lines = s.lines.set l v := rfl
@[simp] theorem State.driveLine_lineDir (s : State) (v : Level) (l : Line) : (s.driveLine v l).lineDir = s.lineDir := rfl
@[simp] theorem State.driveLine_inDir (s : State) (v : Level) (l : Line) : (s.driveLine v l).inDir = s.inDir := rfl
@[simp] theorem State.driveLine_cnt (s : State) (v : Level) (l : Line) : (s.driveLine v l).cnt = s.cnt := rfl
@[simp] theorem State.driveLine_busy (s : State) (v : Level) (l : Line) : (s.driveLine v l).busy = s.busy := rfl
@[simp] theorem State.driveLine_req (s : State) (v : Level) (l : Line) : (s.driveLine v l).req = s.req := rfl
@[simp] theorem State.driveLine_upc (s : State) (v : Level) (l : Line) : (s.driveLine v l).upc = s.upc := rfl
@[simp] theorem State.driveLine_todo (s : State) (v : Level) (l : Line) : (s.driveLine v l).todo = s.todo := rfl
@[simp] theorem State.driveLine_result (s : State) (v : Level) (l : Line) : (s.driveLine v l).result = s.result := rfl
@[simp] theorem State.driveLine_pendFast (s : State) (v : Level) (l : Line) : (s.driveLine v l).pendFast = s.pendFast := rfl
@[simp] theorem State.driveLine_pendSlow (s : State) (v : Level) (l : Line) : (s.driveLine v l).pendSlow = s.pendSlow := rfl
@[simp] theorem State.driveLine_inIsr (s : State) (v : Level) (l : Line) : (s.driveLine v l).inIsr = s.inIsr := rfl
@[simp] theorem State.driveLine_convDue (s : State) (v : Level) (l : Line) : (s.driveLine v l).convDue = s.convDue := rfl
@[simp] theorem State.driveLine_lineTrace (s : State) (v : Level) (l : Line) : (s.driveLine v l).lineTrace = s.lineTrace ++ [.write l v] := rfl
@[simp] theorem State.driveLine_xferTrace (s : State) (v : Level) (l : Line) : (s.driveLine v l).xferTrace = s.xferTrace ++ fallEntries s.lines l v := rfl
@[simp] theorem State.driveLine_mark (s : State) (v : Level) (l : Line) : (s.driveLine v l).mark = s.mark := rfl
@[simp] theorem State.driveLine_rdValue (s : State) (v : Level) (l : Line) : (s.driveLine v l).rdValue = s.rdValue := rfl
@[simp] theorem State.driveLine_nibbles (s : State) (v : Level) (l : Line) : (s.driveLine v l).nibbles = s.nibbles := rfl
@[simp] theorem State.driveLine_resets (s : State) (v : Level) (l : Line) : (s.driveLine v l).resets = s.resets := rfl
@[simp] theorem State.driveLine_cfg (s : State) (v : Level) (l : Line) : (s.driveLine v l).cfg = s.cfg := rfl
@[simp] theorem State.driveLine_txt (s : State) (v : Level) (l : Line) : (s.driveLine v l).txt = s.txt := rfl
@[simp] theorem State.driveLine_inp (s : State) (v : Level) (l : Line) : (s.driveLine v l).inp = s.inp := rfl
@[simp] theorem State.driveLine_script (s : State) (v : Level) (l : Line) : (s.driveLine v l).script = s.script := rfl

/-! ## `driveData` -/

@[simp] theorem State.driveData_lines (s : State) (n : Nibble) (i : Fin 4) : (s.driveData n i).lines = s.lines.setDataLine i (nibbleBit n i) := rfl
@[simp] theorem State.driveData_lineDir (s : State) (n : Nibble) (i : Fin 4) : (s.driveData n i).lineDir = s.lineDir := rfl
@[simp] theorem State.driveData_inDir (s : State) (n : Nibble) (i : Fin 4) : (s.driveData n i).inDir = s.inDir := rfl
@[simp] theorem State.driveData_cnt (s : State) (n : Nibble) (i : Fin 4) : (s.driveData n i).cnt = s.cnt := rfl
@[simp] theorem State.driveData_busy (s : State) (n : Nibble) (i : Fin 4) : (s.driveData n i).busy = s.busy := rfl
@[simp] theorem State.driveData_req (s : State) (n : Nibble) (i : Fin 4) : (s.driveData n i).req = s.req := rfl
@[simp] theorem State.driveData_upc (s : State) (n : Nibble) (i : Fin 4) : (s.driveData n i).upc = s.upc := rfl
@[simp] theorem State.driveData_todo (s : State) (n : Nibble) (i : Fin 4) : (s.driveData n i).todo = s.todo := rfl
@[simp] theorem State.driveData_result (s : State) (n : Nibble) (i : Fin 4) : (s.driveData n i).result = s.result := rfl
@[simp] theorem State.driveData_pendFast (s : State) (n : Nibble) (i : Fin 4) : (s.driveData n i).pendFast = s.pendFast := rfl
@[simp] theorem State.driveData_pendSlow (s : State) (n : Nibble) (i : Fin 4) : (s.driveData n i).pendSlow = s.pendSlow := rfl
@[simp] theorem State.driveData_inIsr (s : State) (n : Nibble) (i : Fin 4) : (s.driveData n i).inIsr = s.inIsr := rfl
@[simp] theorem State.driveData_convDue (s : State) (n : Nibble) (i : Fin 4) : (s.driveData n i).convDue = s.convDue := rfl
@[simp] theorem State.driveData_lineTrace (s : State) (n : Nibble) (i : Fin 4) : (s.driveData n i).lineTrace = s.lineTrace ++ [.write (dataLine i) (nibbleBit n i)] := rfl
@[simp] theorem State.driveData_xferTrace (s : State) (n : Nibble) (i : Fin 4) : (s.driveData n i).xferTrace = s.xferTrace := rfl
@[simp] theorem State.driveData_mark (s : State) (n : Nibble) (i : Fin 4) : (s.driveData n i).mark = s.mark := rfl
@[simp] theorem State.driveData_rdValue (s : State) (n : Nibble) (i : Fin 4) : (s.driveData n i).rdValue = s.rdValue := rfl
@[simp] theorem State.driveData_nibbles (s : State) (n : Nibble) (i : Fin 4) : (s.driveData n i).nibbles = s.nibbles := rfl
@[simp] theorem State.driveData_resets (s : State) (n : Nibble) (i : Fin 4) : (s.driveData n i).resets = s.resets := rfl
@[simp] theorem State.driveData_cfg (s : State) (n : Nibble) (i : Fin 4) : (s.driveData n i).cfg = s.cfg := rfl
@[simp] theorem State.driveData_txt (s : State) (n : Nibble) (i : Fin 4) : (s.driveData n i).txt = s.txt := rfl
@[simp] theorem State.driveData_inp (s : State) (n : Nibble) (i : Fin 4) : (s.driveData n i).inp = s.inp := rfl
@[simp] theorem State.driveData_script (s : State) (n : Nibble) (i : Fin 4) : (s.driveData n i).script = s.script := rfl

/-! ## `waitDelay` -/

@[simp] theorem State.waitDelay_lines (s : State) (d : DelayName) : (s.waitDelay d).lines = s.lines := rfl
@[simp] theorem State.waitDelay_lineDir (s : State) (d : DelayName) : (s.waitDelay d).lineDir = s.lineDir := rfl
@[simp] theorem State.waitDelay_inDir (s : State) (d : DelayName) : (s.waitDelay d).inDir = s.inDir := rfl
@[simp] theorem State.waitDelay_cnt (s : State) (d : DelayName) : (s.waitDelay d).cnt = s.cnt := rfl
@[simp] theorem State.waitDelay_busy (s : State) (d : DelayName) : (s.waitDelay d).busy = s.busy := rfl
@[simp] theorem State.waitDelay_req (s : State) (d : DelayName) : (s.waitDelay d).req = s.req := rfl
@[simp] theorem State.waitDelay_upc (s : State) (d : DelayName) : (s.waitDelay d).upc = s.upc := rfl
@[simp] theorem State.waitDelay_todo (s : State) (d : DelayName) : (s.waitDelay d).todo = s.todo := rfl
@[simp] theorem State.waitDelay_result (s : State) (d : DelayName) : (s.waitDelay d).result = s.result := rfl
@[simp] theorem State.waitDelay_pendFast (s : State) (d : DelayName) : (s.waitDelay d).pendFast = s.pendFast := rfl
@[simp] theorem State.waitDelay_pendSlow (s : State) (d : DelayName) : (s.waitDelay d).pendSlow = s.pendSlow := rfl
@[simp] theorem State.waitDelay_inIsr (s : State) (d : DelayName) : (s.waitDelay d).inIsr = s.inIsr := rfl
@[simp] theorem State.waitDelay_convDue (s : State) (d : DelayName) : (s.waitDelay d).convDue = s.convDue := rfl
@[simp] theorem State.waitDelay_lineTrace (s : State) (d : DelayName) : (s.waitDelay d).lineTrace = s.lineTrace ++ [.delay d] := rfl
@[simp] theorem State.waitDelay_xferTrace (s : State) (d : DelayName) : (s.waitDelay d).xferTrace = s.xferTrace ++ [.delay d] := rfl
@[simp] theorem State.waitDelay_mark (s : State) (d : DelayName) : (s.waitDelay d).mark = s.mark := rfl
@[simp] theorem State.waitDelay_rdValue (s : State) (d : DelayName) : (s.waitDelay d).rdValue = s.rdValue := rfl
@[simp] theorem State.waitDelay_nibbles (s : State) (d : DelayName) : (s.waitDelay d).nibbles = s.nibbles := rfl
@[simp] theorem State.waitDelay_resets (s : State) (d : DelayName) : (s.waitDelay d).resets = s.resets := rfl
@[simp] theorem State.waitDelay_cfg (s : State) (d : DelayName) : (s.waitDelay d).cfg = s.cfg := rfl
@[simp] theorem State.waitDelay_txt (s : State) (d : DelayName) : (s.waitDelay d).txt = s.txt := rfl
@[simp] theorem State.waitDelay_inp (s : State) (d : DelayName) : (s.waitDelay d).inp = s.inp := rfl
@[simp] theorem State.waitDelay_script (s : State) (d : DelayName) : (s.waitDelay d).script = s.script := rfl

/-! ## `sampleButtons` -/

@[simp] theorem State.sampleButtons_lines (s : State) (a b c : Level) : (State.sampleButtons a b c s).lines = s.lines := rfl
@[simp] theorem State.sampleButtons_lineDir (s : State) (a b c : Level) : (State.sampleButtons a b c s).lineDir = s.lineDir := rfl
@[simp] theorem State.sampleButtons_inDir (s : State) (a b c : Level) : (State.sampleButtons a b c s).inDir = s.inDir := rfl
@[simp] theorem State.sampleButtons_cnt (s : State) (a b c : Level) : (State.sampleButtons a b c s).cnt = ⟨sampleCnt a s.cnt.up, sampleCnt b s.cnt.enter, sampleCnt c s.cnt.down⟩ := rfl
@[simp] theorem State.sampleButtons_busy (s : State) (a b c : Level) : (State.sampleButtons a b c s).busy = s.busy := rfl
@[simp] theorem State.sampleButtons_req (s : State) (a b c : Level) : (State.sampleButtons a b c s).req = s.req := rfl
@[simp] theorem State.sampleButtons_upc (s : State) (a b c : Level) : (State.sampleButtons a b c s).upc = s.upc := rfl
@[simp] theorem State.sampleButtons_todo (s : State) (a b c : Level) : (State.sampleButtons a b c s).todo = s.todo := rfl
@[simp] theorem State.sampleButtons_result (s : State) (a b c : Level) : (State.sampleButtons a b c s).result = s.result := rfl
@[simp] theorem State.sampleButtons_pendFast (s : State) (a b c : Level) : (State.sampleButtons a b c s).pendFast = s.pendFast := rfl
@[simp] theorem State.sampleButtons_pendSlow (s : State) (a b c : Level) : (State.sampleButtons a b c s).pendSlow = s.pendSlow := rfl
@[simp] theorem State.sampleButtons_inIsr (s : State) (a b c : Level) : (State.sampleButtons a b c s).inIsr = s.inIsr := rfl
@[simp] theorem State.sampleButtons_convDue (s : State) (a b c : Level) : (State.sampleButtons a b c s).convDue = s.convDue := rfl
@[simp] theorem State.sampleButtons_lineTrace (s : State) (a b c : Level) : (State.sampleButtons a b c s).lineTrace = s.lineTrace := rfl
@[simp] theorem State.sampleButtons_xferTrace (s : State) (a b c : Level) : (State.sampleButtons a b c s).xferTrace = s.xferTrace := rfl
@[simp] theorem State.sampleButtons_mark (s : State) (a b c : Level) : (State.sampleButtons a b c s).mark = s.mark := rfl
@[simp] theorem State.sampleButtons_rdValue (s : State) (a b c : Level) : (State.sampleButtons a b c s).rdValue = s.rdValue := rfl
@[simp] theorem State.sampleButtons_nibbles (s : State) (a b c : Level) : (State.sampleButtons a b c s).nibbles = s.nibbles := rfl
@[simp] theorem State.sampleButtons_resets (s : State) (a b c : Level) : (State.sampleButtons a b c s).resets = s.resets := rfl
@[simp] theorem State.sampleButtons_cfg (s : State) (a b c : Level) : (State.sampleButtons a b c s).cfg = s.cfg := rfl
@[simp] theorem State.sampleButtons_txt (s : State) (a b c : Level) : (State.sampleButtons a b c s).txt = s.txt := rfl
@[simp] theorem State.sampleButtons_inp (s : State) (a b c : Level) : (State.sampleButtons a b c s).inp = s.inp := rfl
@[simp] theorem State.sampleButtons_script (s : State) (a b c : Level) : (State.sampleButtons a b c s).script = s.script := rfl

/-! ## `endOp` -/

@[simp] theorem State.endOp_lines (s : State) (r : Byte) : (s.endOp r).lines = s.lines := rfl
@[simp] theorem State.endOp_lineDir (s : State) (r : Byte) : (s.endOp r).lineDir = s.lineDir := rfl
@[simp] theorem State.endOp_inDir (s : State) (r : Byte) : (s.endOp r).inDir = s.inDir := rfl
@[simp] theorem State.endOp_cnt (s : State) (r : Byte) : (s.endOp r).cnt = s.cnt := rfl
@[simp] theorem State.endOp_busy (s : State) (r : Byte) : (s.endOp r).busy = false := rfl
@[simp] theorem State.endOp_req (s : State) (r : Byte) : (s.endOp r).req = s.req := rfl
@[simp] theorem State.endOp_upc (s : State) (r : Byte) : (s.endOp r).upc = s.upc := rfl
@[simp] theorem State.endOp_todo (s : State) (r : Byte) : (s.endOp r).todo = [] := rfl
@[simp] theorem State.endOp_result (s : State) (r : Byte) : (s.endOp r).result = r := rfl
@[simp] theorem State.endOp_pendFast (s : State) (r : Byte) : (s.endOp r).pendFast = s.pendFast := rfl
@[simp] theorem State.endOp_pendSlow (s : State) (r : Byte) : (s.endOp r).pendSlow = s.pendSlow := rfl
@[simp] theorem State.endOp_inIsr (s : State) (r : Byte) : (s.endOp r).inIsr = s.inIsr := rfl
@[simp] theorem State.endOp_convDue (s : State) (r : Byte) : (s.endOp r).convDue = s.convDue := rfl
@[simp] theorem State.endOp_lineTrace (s : State) (r : Byte) : (s.endOp r).lineTrace = s.lineTrace := rfl
@[simp] theorem State.endOp_xferTrace (s : State) (r : Byte) : (s.endOp r).xferTrace = s.xferTrace := rfl
@[simp] theorem State.endOp_mark (s : State) (r : Byte) : (s.endOp r).mark = s.mark := rfl
@[simp] theorem State.endOp_rdValue (s : State) (r : Byte) : (s.endOp r).rdValue = s.rdValue := rfl
@[simp] theorem State.endOp_nibbles (s : State) (r : Byte) : (s.endOp r).nibbles = s.nibbles := rfl
@[simp] theorem State.endOp_resets (s : State) (r : Byte) : (s.endOp r).resets = s.resets := rfl
@[simp] theorem State.endOp_cfg (s : State) (r : Byte) : (s.endOp r).cfg = s.cfg := rfl
@[simp] theorem State.endOp_txt (s : State) (r : Byte) : (s.endOp r).txt = s.txt := rfl
@[simp] theorem State.endOp_inp (s : State) (r : Byte) : (s.endOp r).inp = s.inp := rfl
@[simp] theorem State.endOp_script (s : State) (r : Byte) : (s.endOp r).script = s.script := rfl

/-! ## `countStep` -/

@[simp] theorem State.countStep_lines (s : State) : (s.countStep).lines = s.lines := rfl
@[simp] theorem State.countStep_lineDir (s : State) : (s.countStep).lineDir = s.lineDir := rfl
@[simp] theorem State.countStep_inDir (s : State) : (s.countStep).inDir = s.inDir := rfl
@[simp] theorem State.countStep_cnt (s : State) : (s.countStep).cnt = s.cnt := rfl
@[simp] theorem State.countStep_busy (s : State) : (s.countStep).busy = s.busy := rfl
@[simp] theorem State.countStep_req (s : State) : (s.countStep).req = s.req := rfl
@[simp] theorem State.countStep_upc (s : State) : (s.countStep).upc = s.upc + 1 := rfl
@[simp] theorem State.countStep_todo (s : State) : (s.countStep).todo = s.todo := rfl
@[simp] theorem State.countStep_result (s : State) : (s.countStep).result = s.result := rfl
@[simp] theorem State.countStep_pendFast (s : State) : (s.countStep).pendFast = s.pendFast := rfl
@[simp] theorem State.countStep_pendSlow (s : State) : (s.countStep).pendSlow = s.pendSlow := rfl
@[simp] theorem State.countStep_inIsr (s : State) : (s.countStep).inIsr = s.inIsr := rfl
@[simp] theorem State.countStep_convDue (s : State) : (s.countStep).convDue = s.convDue := rfl
@[simp] theorem State.countStep_lineTrace (s : State) : (s.countStep).lineTrace = s.lineTrace := rfl
@[simp] theorem State.countStep_xferTrace (s : State) : (s.countStep).xferTrace = s.xferTrace := rfl
@[simp] theorem State.countStep_mark (s : State) : (s.countStep).mark = s.mark := rfl
@[simp] theorem State.countStep_rdValue (s : State) : (s.countStep).rdValue = s.rdValue := rfl
@[simp] theorem State.countStep_nibbles (s : State) : (s.countStep).nibbles = s.nibbles := rfl
@[simp] theorem State.countStep_resets (s : State) : (s.countStep).resets = s.resets := rfl
@[simp] theorem State.countStep_cfg (s : State) : (s.countStep).cfg = s.cfg := rfl
@[simp] theorem State.countStep_txt (s : State) : (s.countStep).txt = s.txt := rfl
@[simp] theorem State.countStep_inp (s : State) : (s.countStep).inp = s.inp := rfl
@[simp] theorem State.countStep_script (s : State) : (s.countStep).script = s.script := rfl

/-! ## `leaveHandler` -/

@[simp] theorem State.leaveHandler_lines (s : State) : (s.leaveHandler).lines = s.lines := rfl
@[simp] theorem State.leaveHandler_lineDir (s : State) : (s.leaveHandler).lineDir = s.lineDir := rfl
@[simp] theorem State.leaveHandler_inDir (s : State) : (s.leaveHandler).inDir = s.inDir := rfl
@[simp] theorem State.leaveHandler_cnt (s : State) : (s.leaveHandler).cnt = s.cnt := rfl
@[simp] theorem State.leaveHandler_busy (s : State) : (s.leaveHandler).busy = s.busy := rfl
@[simp] theorem State.leaveHandler_req (s : State) : (s.leaveHandler).req = s.req := rfl
@[simp] theorem State.leaveHandler_upc (s : State) : (s.leaveHandler).upc = s.upc := rfl
@[simp] theorem State.leaveHandler_todo (s : State) : (s.leaveHandler).todo = s.todo := rfl
@[simp] theorem State.leaveHandler_result (s : State) : (s.leaveHandler).result = s.result := rfl
@[simp] theorem State.leaveHandler_pendFast (s : State) : (s.leaveHandler).pendFast = s.pendFast := rfl
@[simp] theorem State.leaveHandler_pendSlow (s : State) : (s.leaveHandler).pendSlow = s.pendSlow := rfl
@[simp] theorem State.leaveHandler_inIsr (s : State) : (s.leaveHandler).inIsr = false := rfl
@[simp] theorem State.leaveHandler_convDue (s : State) : (s.leaveHandler).convDue = s.convDue := rfl
@[simp] theorem State.leaveHandler_lineTrace (s : State) : (s.leaveHandler).lineTrace = s.lineTrace := rfl
@[simp] theorem State.leaveHandler_xferTrace (s : State) : (s.leaveHandler).xferTrace = s.xferTrace := rfl
@[simp] theorem State.leaveHandler_mark (s : State) : (s.leaveHandler).mark = s.mark := rfl
@[simp] theorem State.leaveHandler_rdValue (s : State) : (s.leaveHandler).rdValue = s.rdValue := rfl
@[simp] theorem State.leaveHandler_nibbles (s : State) : (s.leaveHandler).nibbles = s.nibbles := rfl
@[simp] theorem State.leaveHandler_resets (s : State) : (s.leaveHandler).resets = s.resets := rfl
@[simp] theorem State.leaveHandler_cfg (s : State) : (s.leaveHandler).cfg = s.cfg := rfl
@[simp] theorem State.leaveHandler_txt (s : State) : (s.leaveHandler).txt = s.txt := rfl
@[simp] theorem State.leaveHandler_inp (s : State) : (s.leaveHandler).inp = s.inp := rfl
@[simp] theorem State.leaveHandler_script (s : State) : (s.leaveHandler).script = s.script := rfl

/-! ## `setConvDue` -/

@[simp] theorem State.setConvDue_lines (s : State) : (s.setConvDue).lines = s.lines := rfl
@[simp] theorem State.setConvDue_lineDir (s : State) : (s.setConvDue).lineDir = s.lineDir := rfl
@[simp] theorem State.setConvDue_inDir (s : State) : (s.setConvDue).inDir = s.inDir := rfl
@[simp] theorem State.setConvDue_cnt (s : State) : (s.setConvDue).cnt = s.cnt := rfl
@[simp] theorem State.setConvDue_busy (s : State) : (s.setConvDue).busy = s.busy := rfl
@[simp] theorem State.setConvDue_req (s : State) : (s.setConvDue).req = s.req := rfl
@[simp] theorem State.setConvDue_upc (s : State) : (s.setConvDue).upc = s.upc := rfl
@[simp] theorem State.setConvDue_todo (s : State) : (s.setConvDue).todo = s.todo := rfl
@[simp] theorem State.setConvDue_result (s : State) : (s.setConvDue).result = s.result := rfl
@[simp] theorem State.setConvDue_pendFast (s : State) : (s.setConvDue).pendFast = s.pendFast := rfl
@[simp] theorem State.setConvDue_pendSlow (s : State) : (s.setConvDue).pendSlow = s.pendSlow := rfl
@[simp] theorem State.setConvDue_inIsr (s : State) : (s.setConvDue).inIsr = s.inIsr := rfl
@[simp] theorem State.setConvDue_convDue (s : State) : (s.setConvDue).convDue = true := rfl
@[simp] theorem State.setConvDue_lineTrace (s : State) : (s.setConvDue).lineTrace = s.lineTrace := rfl
@[simp] theorem State.setConvDue_xferTrace (s : State) : (s.setConvDue).xferTrace = s.xferTrace := rfl
@[simp] theorem State.setConvDue_mark (s : State) : (s.setConvDue).mark = s.mark := rfl
@[simp] theorem State.setConvDue_rdValue (s : State) : (s.setConvDue).rdValue = s.rdValue := rfl
@[simp] theorem State.setConvDue_nibbles (s : State) : (s.setConvDue).nibbles = s.nibbles := rfl
@[simp] theorem State.setConvDue_resets (s : State) : (s.setConvDue).resets = s.resets := rfl
@[simp] theorem State.setConvDue_cfg (s : State) : (s.setConvDue).cfg = s.cfg := rfl
@[simp] theorem State.setConvDue_txt (s : State) : (s.setConvDue).txt = s.txt := rfl
@[simp] theorem State.setConvDue_inp (s : State) : (s.setConvDue).inp = s.inp := rfl
@[simp] theorem State.setConvDue_script (s : State) : (s.setConvDue).script = s.script := rfl

/-! ## `raiseTick` -/

@[simp] theorem State.raiseTick_lines (s : State) (src : TickSource) : (s.raiseTick src).lines = s.lines := by cases src <;> rfl
@[simp] theorem State.raiseTick_lineDir (s : State) (src : TickSource) : (s.raiseTick src).lineDir = s.lineDir := by cases src <;> rfl
@[simp] theorem State.raiseTick_inDir (s : State) (src : TickSource) : (s.raiseTick src).inDir = s.inDir := by cases src <;> rfl
@[simp] theorem State.raiseTick_cnt (s : State) (src : TickSource) : (s.raiseTick src).cnt = s.cnt := by cases src <;> rfl
@[simp] theorem State.raiseTick_busy (s : State) (src : TickSource) : (s.raiseTick src).busy = s.busy := by cases src <;> rfl
@[simp] theorem State.raiseTick_req (s : State) (src : TickSource) : (s.raiseTick src).req = s.req := by cases src <;> rfl
@[simp] theorem State.raiseTick_upc (s : State) (src : TickSource) : (s.raiseTick src).upc = s.upc := by cases src <;> rfl
@[simp] theorem State.raiseTick_todo (s : State) (src : TickSource) : (s.raiseTick src).todo = s.todo := by cases src <;> rfl
@[simp] theorem State.raiseTick_result (s : State) (src : TickSource) : (s.raiseTick src).result = s.result := by cases src <;> rfl
@[simp] theorem State.raiseTick_inIsr (s : State) (src : TickSource) : (s.raiseTick src).inIsr = s.inIsr := by cases src <;> rfl
@[simp] theorem State.raiseTick_convDue (s : State) (src : TickSource) : (s.raiseTick src).convDue = s.convDue := by cases src <;> rfl
@[simp] theorem State.raiseTick_lineTrace (s : State) (src : TickSource) : (s.raiseTick src).lineTrace = s.lineTrace := by cases src <;> rfl
@[simp] theorem State.raiseTick_xferTrace (s : State) (src : TickSource) : (s.raiseTick src).xferTrace = s.xferTrace := by cases src <;> rfl
@[simp] theorem State.raiseTick_mark (s : State) (src : TickSource) : (s.raiseTick src).mark = s.mark := by cases src <;> rfl
@[simp] theorem State.raiseTick_rdValue (s : State) (src : TickSource) : (s.raiseTick src).rdValue = s.rdValue := by cases src <;> rfl
@[simp] theorem State.raiseTick_nibbles (s : State) (src : TickSource) : (s.raiseTick src).nibbles = s.nibbles := by cases src <;> rfl
@[simp] theorem State.raiseTick_resets (s : State) (src : TickSource) : (s.raiseTick src).resets = s.resets := by cases src <;> rfl
@[simp] theorem State.raiseTick_cfg (s : State) (src : TickSource) : (s.raiseTick src).cfg = s.cfg := by cases src <;> rfl
@[simp] theorem State.raiseTick_txt (s : State) (src : TickSource) : (s.raiseTick src).txt = s.txt := by cases src <;> rfl
@[simp] theorem State.raiseTick_inp (s : State) (src : TickSource) : (s.raiseTick src).inp = s.inp := by cases src <;> rfl
@[simp] theorem State.raiseTick_script (s : State) (src : TickSource) : (s.raiseTick src).script = s.script := by cases src <;> rfl
@[simp] theorem State.raiseTick_fast_pendFast (s : State) : (s.raiseTick .fast).pendFast = true := rfl
@[simp] theorem State.raiseTick_fast_pendSlow (s : State) : (s.raiseTick .fast).pendSlow = s.pendSlow := rfl
@[simp] theorem State.raiseTick_slow_pendFast (s : State) : (s.raiseTick .slow).pendFast = s.pendFast := rfl
@[simp] theorem State.raiseTick_slow_pendSlow (s : State) : (s.raiseTick .slow).pendSlow = true := rfl

/-! ## `enterHandler` -/

@[simp] theorem State.enterHandler_lines (s : State) (src : TickSource) : (s.enterHandler src).lines = s.lines := by cases src <;> rfl
@[simp] theorem State.enterHandler_lineDir (s : State) (src : TickSource) : (s.enterHandler src).lineDir = s.lineDir := by cases src <;> rfl
@[simp] theorem State.enterHandler_inDir (s : State) (src : TickSource) : (s.enterHandler src).inDir = s.inDir := by cases src <;> rfl
@[simp] theorem State.enterHandler_cnt (s : State) (src : TickSource) : (s.enterHandler src).cnt = s.cnt := by cases src <;> rfl
@[simp] theorem State.enterHandler_busy (s : State) (src : TickSource) : (s.enterHandler src).busy = s.busy := by cases src <;> rfl
@[simp] theorem State.enterHandler_req (s : State) (src : TickSource) : (s.enterHandler src).req = s.req := by cases src <;> rfl
@[simp] theorem State.enterHandler_upc (s : State) (src : TickSource) : (s.enterHandler src).upc = s.upc := by cases src <;> rfl
@[simp] theorem State.enterHandler_todo (s : State) (src : TickSource) : (s.enterHandler src).todo = s.todo := by cases src <;> rfl
@[simp] theorem State.enterHandler_result (s : State) (src : TickSource) : (s.enterHandler src).result = s.result := by cases src <;> rfl
@[simp] theorem State.enterHandler_convDue (s : State) (src : TickSource) : (s.enterHandler src).convDue = s.convDue := by cases src <;> rfl
@[simp] theorem State.enterHandler_lineTrace (s : State) (src : TickSource) : (s.enterHandler src).lineTrace = s.lineTrace := by cases src <;> rfl
@[simp] theorem State.enterHandler_xferTrace (s : State) (src : TickSource) : (s.enterHandler src).xferTrace = s.xferTrace := by cases src <;> rfl
@[simp] theorem State.enterHandler_mark (s : State) (src : TickSource) : (s.enterHandler src).mark = s.mark := by cases src <;> rfl
@[simp] theorem State.enterHandler_rdValue (s : State) (src : TickSource) : (s.enterHandler src).rdValue = s.rdValue := by cases src <;> rfl
@[simp] theorem State.enterHandler_nibbles (s : State) (src : TickSource) : (s.enterHandler src).nibbles = s.nibbles := by cases src <;> rfl
@[simp] theorem State.enterHandler_resets (s : State) (src : TickSource) : (s.enterHandler src).resets = s.resets := by cases src <;> rfl
@[simp] theorem State.enterHandler_cfg (s : State) (src : TickSource) : (s.enterHandler src).cfg = s.cfg := by cases src <;> rfl
@[simp] theorem State.enterHandler_txt (s : State) (src : TickSource) : (s.enterHandler src).txt = s.txt := by cases src <;> rfl
@[simp] theorem State.enterHandler_inp (s : State) (src : TickSource) : (s.enterHandler src).inp = s.inp := by cases src <;> rfl
@[simp] theorem State.enterHandler_script (s : State) (src : TickSource) : (s.enterHandler src).script = s.script := by cases src <;> rfl
@[simp] theorem State.enterHandler_fast_pendFast (s : State) : (s.enterHandler .fast).pendFast = false := rfl
@[simp] theorem State.enterHandler_fast_pendSlow (s : State) : (s.enterHandler .fast).pendSlow = s.pendSlow := rfl
@[simp] theorem State.enterHandler_slow_pendFast (s : State) : (s.enterHandler .slow).pendFast = s.pendFast := rfl
@[simp] theorem State.enterHandler_slow_pendSlow (s : State) : (s.enterHandler .slow).pendSlow = false := rfl
@[simp] theorem State.enterHandler_inIsr (s : State) (src : TickSource) : (s.enterHandler src).inIsr = true := by cases src <;> rfl

/-! ## `afterReset` -/

@[simp] theorem State.afterReset_lines (s : State) : s.afterReset.lines = State.reset.lines := rfl
@[simp] theorem State.afterReset_lineDir (s : State) : s.afterReset.lineDir = State.reset.lineDir := rfl
@[simp] theorem State.afterReset_inDir (s : State) : s.afterReset.inDir = State.reset.inDir := rfl
@[simp] theorem State.afterReset_cnt (s : State) : s.afterReset.cnt = ⟨s.cfg.cntReset, s.cfg.cntReset, s.cfg.cntReset⟩ := rfl
@[simp] theorem State.afterReset_busy (s : State) : s.afterReset.busy = State.reset.busy := rfl
@[simp] theorem State.afterReset_req (s : State) : s.afterReset.req = State.reset.req := rfl
@[simp] theorem State.afterReset_upc (s : State) : s.afterReset.upc = State.reset.upc := rfl
@[simp] theorem State.afterReset_todo (s : State) : s.afterReset.todo = State.reset.todo := rfl
@[simp] theorem State.afterReset_result (s : State) : s.afterReset.result = State.reset.result := rfl
@[simp] theorem State.afterReset_pendFast (s : State) : s.afterReset.pendFast = State.reset.pendFast := rfl
@[simp] theorem State.afterReset_pendSlow (s : State) : s.afterReset.pendSlow = State.reset.pendSlow := rfl
@[simp] theorem State.afterReset_inIsr (s : State) : s.afterReset.inIsr = State.reset.inIsr := rfl
@[simp] theorem State.afterReset_convDue (s : State) : s.afterReset.convDue = Config.freeResetConvDue s.resets := rfl
@[simp] theorem State.afterReset_lineTrace (s : State) : s.afterReset.lineTrace = s.lineTrace := rfl
@[simp] theorem State.afterReset_xferTrace (s : State) : s.afterReset.xferTrace = s.xferTrace ++ s.resetEntries := rfl
@[simp] theorem State.afterReset_mark (s : State) : s.afterReset.mark = s.mark := rfl
@[simp] theorem State.afterReset_rdValue (s : State) : s.afterReset.rdValue = s.rdValue := rfl
@[simp] theorem State.afterReset_nibbles (s : State) : s.afterReset.nibbles = s.nibbles := rfl
@[simp] theorem State.afterReset_resets (s : State) : s.afterReset.resets = s.resets + 1 := rfl
@[simp] theorem State.afterReset_cfg (s : State) : s.afterReset.cfg = s.cfg := rfl
@[simp] theorem State.afterReset_txt (s : State) : s.afterReset.txt = s.txt := rfl
@[simp] theorem State.afterReset_inp (s : State) : s.afterReset.inp = s.inp := rfl
@[simp] theorem State.afterReset_script (s : State) : s.afterReset.script = s.script := rfl

/-! ## `goOn`: what is left is done next, or the operation ends -/

@[simp] theorem State.goOn_nil (s : State) : s.goOn [] = s.endOp 0 := rfl

@[simp] theorem State.goOn_cons (s : State) (m : Micro) (ms : List Micro) :
    s.goOn (m :: ms) = { s with todo := m :: ms } := rfl

@[simp] theorem State.goOn_lines (s : State) (ms : List Micro) : (s.goOn ms).lines = s.lines := by cases ms <;> rfl
@[simp] theorem State.goOn_lineDir (s : State) (ms : List Micro) : (s.goOn ms).lineDir = s.lineDir := by cases ms <;> rfl
@[simp] theorem State.goOn_inDir (s : State) (ms : List Micro) : (s.goOn ms).inDir = s.inDir := by cases ms <;> rfl
@[simp] theorem State.goOn_cnt (s : State) (ms : List Micro) : (s.goOn ms).cnt = s.cnt := by cases ms <;> rfl
@[simp] theorem State.goOn_req (s : State) (ms : List Micro) : (s.goOn ms).req = s.req := by cases ms <;> rfl
@[simp] theorem State.goOn_upc (s : State) (ms : List Micro) : (s.goOn ms).upc = s.upc := by cases ms <;> rfl
@[simp] theorem State.goOn_pendFast (s : State) (ms : List Micro) : (s.goOn ms).pendFast = s.pendFast := by cases ms <;> rfl
@[simp] theorem State.goOn_pendSlow (s : State) (ms : List Micro) : (s.goOn ms).pendSlow = s.pendSlow := by cases ms <;> rfl
@[simp] theorem State.goOn_inIsr (s : State) (ms : List Micro) : (s.goOn ms).inIsr = s.inIsr := by cases ms <;> rfl
@[simp] theorem State.goOn_convDue (s : State) (ms : List Micro) : (s.goOn ms).convDue = s.convDue := by cases ms <;> rfl
@[simp] theorem State.goOn_lineTrace (s : State) (ms : List Micro) : (s.goOn ms).lineTrace = s.lineTrace := by cases ms <;> rfl
@[simp] theorem State.goOn_xferTrace (s : State) (ms : List Micro) : (s.goOn ms).xferTrace = s.xferTrace := by cases ms <;> rfl
@[simp] theorem State.goOn_mark (s : State) (ms : List Micro) : (s.goOn ms).mark = s.mark := by cases ms <;> rfl
@[simp] theorem State.goOn_rdValue (s : State) (ms : List Micro) : (s.goOn ms).rdValue = s.rdValue := by cases ms <;> rfl
@[simp] theorem State.goOn_nibbles (s : State) (ms : List Micro) : (s.goOn ms).nibbles = s.nibbles := by cases ms <;> rfl
@[simp] theorem State.goOn_resets (s : State) (ms : List Micro) : (s.goOn ms).resets = s.resets := by cases ms <;> rfl
@[simp] theorem State.goOn_cfg (s : State) (ms : List Micro) : (s.goOn ms).cfg = s.cfg := by cases ms <;> rfl
@[simp] theorem State.goOn_txt (s : State) (ms : List Micro) : (s.goOn ms).txt = s.txt := by cases ms <;> rfl
@[simp] theorem State.goOn_inp (s : State) (ms : List Micro) : (s.goOn ms).inp = s.inp := by cases ms <;> rfl
@[simp] theorem State.goOn_script (s : State) (ms : List Micro) : (s.goOn ms).script = s.script := by cases ms <;> rfl

@[simp] theorem State.goOn_todo (s : State) (ms : List Micro) : (s.goOn ms).todo = ms := by cases ms <;> rfl

/-! ## `writeData` -/

@[simp] theorem State.writeData_lineDir (s : State) (n : Nibble) (j : Fin 4) : (s.writeData n j).lineDir = s.lineDir := by
  fin_cases j <;> rfl
@[simp] theorem State.writeData_inDir (s : State) (n : Nibble) (j : Fin 4) : (s.writeData n j).inDir = s.inDir := by
  fin_cases j <;> rfl
@[simp] theorem State.writeData_cnt (s : State) (n : Nibble) (j : Fin 4) : (s.writeData n j).cnt = s.cnt := by
  fin_cases j <;> rfl
@[simp] theorem State.writeData_busy (s : State) (n : Nibble) (j : Fin 4) : (s.writeData n j).busy = s.busy := by
  fin_cases j <;> rfl
@[simp] theorem State.writeData_req (s : State) (n : Nibble) (j : Fin 4) : (s.writeData n j).req = s.req := by
  fin_cases j <;> rfl
@[simp] theorem State.writeData_upc (s : State) (n : Nibble) (j : Fin 4) : (s.writeData n j).upc = s.upc := by
  fin_cases j <;> rfl
@[simp] theorem State.writeData_todo (s : State) (n : Nibble) (j : Fin 4) : (s.writeData n j).todo = s.todo := by
  fin_cases j <;> rfl
@[simp] theorem State.writeData_result (s : State) (n : Nibble) (j : Fin 4) : (s.writeData n j).result = s.result := by
  fin_cases j <;> rfl
@[simp] theorem State.writeData_pendFast (s : State) (n : Nibble) (j : Fin 4) : (s.writeData n j).pendFast = s.pendFast := by
  fin_cases j <;> rfl
@[simp] theorem State.writeData_pendSlow (s : State) (n : Nibble) (j : Fin 4) : (s.writeData n j).pendSlow = s.pendSlow := by
  fin_cases j <;> rfl
@[simp] theorem State.writeData_inIsr (s : State) (n : Nibble) (j : Fin 4) : (s.writeData n j).inIsr = s.inIsr := by
  fin_cases j <;> rfl
@[simp] theorem State.writeData_convDue (s : State) (n : Nibble) (j : Fin 4) : (s.writeData n j).convDue = s.convDue := by
  fin_cases j <;> rfl
@[simp] theorem State.writeData_xferTrace (s : State) (n : Nibble) (j : Fin 4) : (s.writeData n j).xferTrace = s.xferTrace := by
  fin_cases j <;> rfl
@[simp] theorem State.writeData_mark (s : State) (n : Nibble) (j : Fin 4) : (s.writeData n j).mark = s.mark := by
  fin_cases j <;> rfl
@[simp] theorem State.writeData_rdValue (s : State) (n : Nibble) (j : Fin 4) : (s.writeData n j).rdValue = s.rdValue := by
  fin_cases j <;> rfl
@[simp] theorem State.writeData_resets (s : State) (n : Nibble) (j : Fin 4) : (s.writeData n j).resets = s.resets := by
  fin_cases j <;> rfl
@[simp] theorem State.writeData_cfg (s : State) (n : Nibble) (j : Fin 4) : (s.writeData n j).cfg = s.cfg := by
  fin_cases j <;> rfl
@[simp] theorem State.writeData_txt (s : State) (n : Nibble) (j : Fin 4) : (s.writeData n j).txt = s.txt := by
  fin_cases j <;> rfl
@[simp] theorem State.writeData_inp (s : State) (n : Nibble) (j : Fin 4) : (s.writeData n j).inp = s.inp := by
  fin_cases j <;> rfl
@[simp] theorem State.writeData_script (s : State) (n : Nibble) (j : Fin 4) : (s.writeData n j).script = s.script := by
  fin_cases j <;> rfl

@[simp] theorem State.writeData_lineTrace (s : State) (n : Nibble) (j : Fin 4) : (s.writeData n j).lineTrace =
    s.lineTrace ++ [.write (dataLine (Config.freeDbOrder s.nibbles j)) (nibbleBit n (Config.freeDbOrder s.nibbles j))] := by
  fin_cases j <;> rfl

/-! ## `recordRefusal` -/

@[simp] theorem State.recordRefusal_lines (s : State) (r : Refusal) : (s.recordRefusal r).lines = s.lines := rfl
@[simp] theorem State.recordRefusal_lineDir (s : State) (r : Refusal) : (s.recordRefusal r).lineDir = s.lineDir := rfl
@[simp] theorem State.recordRefusal_inDir (s : State) (r : Refusal) : (s.recordRefusal r).inDir = s.inDir := rfl
@[simp] theorem State.recordRefusal_cnt (s : State) (r : Refusal) : (s.recordRefusal r).cnt = s.cnt := rfl
@[simp] theorem State.recordRefusal_busy (s : State) (r : Refusal) : (s.recordRefusal r).busy = s.busy := rfl
@[simp] theorem State.recordRefusal_req (s : State) (r : Refusal) : (s.recordRefusal r).req = s.req := rfl
@[simp] theorem State.recordRefusal_upc (s : State) (r : Refusal) : (s.recordRefusal r).upc = s.upc := rfl
@[simp] theorem State.recordRefusal_todo (s : State) (r : Refusal) : (s.recordRefusal r).todo = s.todo := rfl
@[simp] theorem State.recordRefusal_result (s : State) (r : Refusal) : (s.recordRefusal r).result = s.result := rfl
@[simp] theorem State.recordRefusal_pendFast (s : State) (r : Refusal) : (s.recordRefusal r).pendFast = s.pendFast := rfl
@[simp] theorem State.recordRefusal_pendSlow (s : State) (r : Refusal) : (s.recordRefusal r).pendSlow = s.pendSlow := rfl
@[simp] theorem State.recordRefusal_inIsr (s : State) (r : Refusal) : (s.recordRefusal r).inIsr = s.inIsr := rfl
@[simp] theorem State.recordRefusal_convDue (s : State) (r : Refusal) : (s.recordRefusal r).convDue = s.convDue := rfl
@[simp] theorem State.recordRefusal_lineTrace (s : State) (r : Refusal) : (s.recordRefusal r).lineTrace = s.lineTrace := rfl
@[simp] theorem State.recordRefusal_xferTrace (s : State) (r : Refusal) : (s.recordRefusal r).xferTrace = s.xferTrace := rfl
@[simp] theorem State.recordRefusal_mark (s : State) (r : Refusal) : (s.recordRefusal r).mark = some (.refusal r) := rfl
@[simp] theorem State.recordRefusal_rdValue (s : State) (r : Refusal) : (s.recordRefusal r).rdValue = s.rdValue := rfl
@[simp] theorem State.recordRefusal_nibbles (s : State) (r : Refusal) : (s.recordRefusal r).nibbles = s.nibbles := rfl
@[simp] theorem State.recordRefusal_resets (s : State) (r : Refusal) : (s.recordRefusal r).resets = s.resets := rfl
@[simp] theorem State.recordRefusal_cfg (s : State) (r : Refusal) : (s.recordRefusal r).cfg = s.cfg := rfl
@[simp] theorem State.recordRefusal_txt (s : State) (r : Refusal) : (s.recordRefusal r).txt = s.txt := rfl
@[simp] theorem State.recordRefusal_inp (s : State) (r : Refusal) : (s.recordRefusal r).inp = s.inp := rfl
@[simp] theorem State.recordRefusal_script (s : State) (r : Refusal) : (s.recordRefusal r).script = s.script := rfl

end Sys2Proof.Machine
end

