-- ==== Sys2Proof/Laws/Ops.lean ====
section
/-!
SUPPORT. What the shared operations can do, said once: bus micro-steps, the gate of a request, the undisturbed run of a
bus program, and every way a step can end.
-/

namespace Sys2Proof.Machine

/-! ## A bus micro-step touches the lines and the traces only -/

@[simp] theorem Prim.apply_lineDir (p : Prim) (s : State) : (p.apply s).lineDir = s.lineDir := by
  cases p <;> simp [Prim.apply]
@[simp] theorem Prim.apply_inDir (p : Prim) (s : State) : (p.apply s).inDir = s.inDir := by
  cases p <;> simp [Prim.apply]
@[simp] theorem Prim.apply_cnt (p : Prim) (s : State) : (p.apply s).cnt = s.cnt := by
  cases p <;> simp [Prim.apply]
@[simp] theorem Prim.apply_busy (p : Prim) (s : State) : (p.apply s).busy = s.busy := by
  cases p <;> simp [Prim.apply]
@[simp] theorem Prim.apply_req (p : Prim) (s : State) : (p.apply s).req = s.req := by
  cases p <;> simp [Prim.apply]
@[simp] theorem Prim.apply_upc (p : Prim) (s : State) : (p.apply s).upc = s.upc := by
  cases p <;> simp [Prim.apply]
@[simp] theorem Prim.apply_todo (p : Prim) (s : State) : (p.apply s).todo = s.todo := by
  cases p <;> simp [Prim.apply]
@[simp] theorem Prim.apply_result (p : Prim) (s : State) : (p.apply s).result = s.result := by
  cases p <;> simp [Prim.apply]
@[simp] theorem Prim.apply_pendFast (p : Prim) (s : State) : (p.apply s).pendFast = s.pendFast := by
  cases p <;> simp [Prim.apply]
@[simp] theorem Prim.apply_pendSlow (p : Prim) (s : State) : (p.apply s).pendSlow = s.pendSlow := by
  cases p <;> simp [Prim.apply]
@[simp] theorem Prim.apply_inIsr (p : Prim) (s : State) : (p.apply s).inIsr = s.inIsr := by
  cases p <;> simp [Prim.apply]
@[simp] theorem Prim.apply_convDue (p : Prim) (s : State) : (p.apply s).convDue = s.convDue := by
  cases p <;> simp [Prim.apply]
@[simp] theorem Prim.apply_mark (p : Prim) (s : State) : (p.apply s).mark = s.mark := by
  cases p <;> simp [Prim.apply]
@[simp] theorem Prim.apply_rdValue (p : Prim) (s : State) : (p.apply s).rdValue = s.rdValue := by
  cases p <;> simp [Prim.apply]
@[simp] theorem Prim.apply_resets (p : Prim) (s : State) : (p.apply s).resets = s.resets := by
  cases p <;> simp [Prim.apply]
@[simp] theorem Prim.apply_cfg (p : Prim) (s : State) : (p.apply s).cfg = s.cfg := by
  cases p <;> simp [Prim.apply]
@[simp] theorem Prim.apply_txt (p : Prim) (s : State) : (p.apply s).txt = s.txt := by
  cases p <;> simp [Prim.apply]
@[simp] theorem Prim.apply_inp (p : Prim) (s : State) : (p.apply s).inp = s.inp := by
  cases p <;> simp [Prim.apply]
@[simp] theorem Prim.apply_script (p : Prim) (s : State) : (p.apply s).script = s.script := by
  cases p <;> simp [Prim.apply]

theorem State.applyAll_cons (p : Prim) (ps : List Prim) (s : State) :
    s.applyAll (p :: ps) = (p.apply s).applyAll ps := rfl

theorem State.applyAll_append (ps qs : List Prim) (s : State) :
    s.applyAll (ps ++ qs) = (s.applyAll ps).applyAll qs := by
  induction ps generalizing s with
  | nil => rfl
  | cons p ps ih => simp [State.applyAll_cons, ih]

@[simp] theorem State.applyAll_lineDir (ps : List Prim) (s : State) : (s.applyAll ps).lineDir = s.lineDir := by
  induction ps generalizing s with
  | nil => rfl
  | cons p ps ih => simp [State.applyAll_cons, ih]
@[simp] theorem State.applyAll_inDir (ps : List Prim) (s : State) : (s.applyAll ps).inDir = s.inDir := by
  induction ps generalizing s with
  | nil => rfl
  | cons p ps ih => simp [State.applyAll_cons, ih]
@[simp] theorem State.applyAll_cnt (ps : List Prim) (s : State) : (s.applyAll ps).cnt = s.cnt := by
  induction ps generalizing s with
  | nil => rfl
  | cons p ps ih => simp [State.applyAll_cons, ih]
@[simp] theorem State.applyAll_busy (ps : List Prim) (s : State) : (s.applyAll ps).busy = s.busy := by
  induction ps generalizing s with
  | nil => rfl
  | cons p ps ih => simp [State.applyAll_cons, ih]
@[simp] theorem State.applyAll_req (ps : List Prim) (s : State) : (s.applyAll ps).req = s.req := by
  induction ps generalizing s with
  | nil => rfl
  | cons p ps ih => simp [State.applyAll_cons, ih]
@[simp] theorem State.applyAll_upc (ps : List Prim) (s : State) : (s.applyAll ps).upc = s.upc := by
  induction ps generalizing s with
  | nil => rfl
  | cons p ps ih => simp [State.applyAll_cons, ih]
@[simp] theorem State.applyAll_todo (ps : List Prim) (s : State) : (s.applyAll ps).todo = s.todo := by
  induction ps generalizing s with
  | nil => rfl
  | cons p ps ih => simp [State.applyAll_cons, ih]
@[simp] theorem State.applyAll_result (ps : List Prim) (s : State) : (s.applyAll ps).result = s.result := by
  induction ps generalizing s with
  | nil => rfl
  | cons p ps ih => simp [State.applyAll_cons, ih]
@[simp] theorem State.applyAll_pendFast (ps : List Prim) (s : State) : (s.applyAll ps).pendFast = s.pendFast := by
  induction ps generalizing s with
  | nil => rfl
  | cons p ps ih => simp [State.applyAll_cons, ih]
@[simp] theorem State.applyAll_pendSlow (ps : List Prim) (s : State) : (s.applyAll ps).pendSlow = s.pendSlow := by
  induction ps generalizing s with
  | nil => rfl
  | cons p ps ih => simp [State.applyAll_cons, ih]
@[simp] theorem State.applyAll_inIsr (ps : List Prim) (s : State) : (s.applyAll ps).inIsr = s.inIsr := by
  induction ps generalizing s with
  | nil => rfl
  | cons p ps ih => simp [State.applyAll_cons, ih]
@[simp] theorem State.applyAll_convDue (ps : List Prim) (s : State) : (s.applyAll ps).convDue = s.convDue := by
  induction ps generalizing s with
  | nil => rfl
  | cons p ps ih => simp [State.applyAll_cons, ih]
@[simp] theorem State.applyAll_mark (ps : List Prim) (s : State) : (s.applyAll ps).mark = s.mark := by
  induction ps generalizing s with
  | nil => rfl
  | cons p ps ih => simp [State.applyAll_cons, ih]
@[simp] theorem State.applyAll_rdValue (ps : List Prim) (s : State) : (s.applyAll ps).rdValue = s.rdValue := by
  induction ps generalizing s with
  | nil => rfl
  | cons p ps ih => simp [State.applyAll_cons, ih]
@[simp] theorem State.applyAll_resets (ps : List Prim) (s : State) : (s.applyAll ps).resets = s.resets := by
  induction ps generalizing s with
  | nil => rfl
  | cons p ps ih => simp [State.applyAll_cons, ih]
@[simp] theorem State.applyAll_cfg (ps : List Prim) (s : State) : (s.applyAll ps).cfg = s.cfg := by
  induction ps generalizing s with
  | nil => rfl
  | cons p ps ih => simp [State.applyAll_cons, ih]
@[simp] theorem State.applyAll_txt (ps : List Prim) (s : State) : (s.applyAll ps).txt = s.txt := by
  induction ps generalizing s with
  | nil => rfl
  | cons p ps ih => simp [State.applyAll_cons, ih]
@[simp] theorem State.applyAll_inp (ps : List Prim) (s : State) : (s.applyAll ps).inp = s.inp := by
  induction ps generalizing s with
  | nil => rfl
  | cons p ps ih => simp [State.applyAll_cons, ih]
@[simp] theorem State.applyAll_script (ps : List Prim) (s : State) : (s.applyAll ps).script = s.script := by
  induction ps generalizing s with
  | nil => rfl
  | cons p ps ih => simp [State.applyAll_cons, ih]

/-! ## The fault mark -/

theorem State.mainTurn_of_clear {s : State} (h : s.mark = none) (k : Host.Outcome State Fault Refusal) :
    s.mainTurn k = k := by
  simp [State.mainTurn, h]

/-- Inversion: the main context has a turn only with nothing recorded. -/
theorem State.mainTurn_next {s t : State} {k : Host.Outcome State Fault Refusal} (h : s.mainTurn k = .next t) :
    s.mark = none ∧ k = .next t := by
  unfold State.mainTurn at h
  split at h
  · next m _ => cases m <;> cases h
  · next hm => exact ⟨hm, h⟩

theorem State.refusal_of_clear {s : State} (h : s.mark = none) : s.refusal = none := by
  simp [State.refusal, h]

/-- Inversion of the recording: the outcome was a next state already, or it was a refusal. -/
theorem State.recordIn_next {s t : State} {o : Host.Outcome State Fault Refusal} (h : s.recordIn o = .next t) :
    o = .next t ∨ ∃ r, o = .refused r ∧ t = s.recordRefusal r := by
  cases o with
  | next u => exact .inl h
  | fault f => cases h
  | refused r => cases h; exact .inr ⟨r, rfl, rfl⟩

/-! ## The gate of a request -/

theorem State.ready_iff (s : State) : s.ready = true ↔ s.busy = false ∧ s.mark = none := by
  simp [State.ready]

theorem State.gate_of_ready {s : State} (h : s.ready = true) (k : Host.Outcome State Fault Refusal) :
    s.gate k = k := by
  obtain ⟨hb, hm⟩ := (State.ready_iff s).1 h
  simp [State.gate, hb, State.mainTurn_of_clear hm]

theorem State.gate_of_busy {s : State} (h : s.busy = true) (k : Host.Outcome State Fault Refusal) :
    s.gate k = .refused .issueWhileBusy := by
  simp [State.gate, h]

/-- Inversion: only a ready state gets past the gate to a next state. -/
theorem State.gate_next {s t : State} {k : Host.Outcome State Fault Refusal} (h : s.gate k = .next t) :
    s.ready = true ∧ k = .next t := by
  unfold State.gate at h
  split at h
  · cases h
  · next hb =>
    obtain ⟨hm, hk⟩ := State.mainTurn_next h
    exact ⟨by simp [State.ready_iff, hm, hb], hk⟩

theorem State.issue_of_ready {s : State} (h : s.ready = true) (w : ReqWord) (ops : List Micro) :
    s.issue w ops = .next (s.start w ops) := State.gate_of_ready h _

theorem State.issue_next {s t : State} {w : ReqWord} {ops : List Micro} (h : s.issue w ops = .next t) :
    s.ready = true ∧ t = s.start w ops := by
  obtain ⟨hr, hk⟩ := State.gate_next h
  cases hk
  exact ⟨hr, rfl⟩

/-! ## The start of an operation -/

theorem State.start_cons (s : State) (w : ReqWord) (m : Micro) (ms : List Micro) :
    s.start w (m :: ms) = { s with req := w, busy := true, upc := 0, todo := m :: ms } := rfl

theorem State.start_nil (s : State) (w : ReqWord) :
    s.start w [] = { s with req := w, busy := false, upc := 0, todo := [], result := 0 } := rfl

/-- A started operation has touched nothing but the sequencer's bookkeeping. -/
theorem State.start_frame (s : State) (w : ReqWord) (ops : List Micro) :
    s.start w ops =
      { s with
        req := w, busy := (s.start w ops).busy, upc := 0, todo := ops, result := (s.start w ops).result } := by
  cases ops <;> rfl

/-! ## Undisturbed steps -/

theorem stepN_zero (s : State) : stepN 0 s = .next s := rfl

theorem stepN_succ (n : Nat) (s : State) :
    stepN (n + 1) s = match step s with
      | .next t => stepN n t
      | .fault f => .fault f
      | .refused r => .refused r := rfl

/-- The host's run of the machine is `stepN`. -/
theorem run_eq_stepN (n : Nat) (s : State) : Host.Core.run Sys2Proof.core n s = stepN n s := by
  induction n generalizing s with
  | zero => rfl
  | succ n ih =>
    rw [stepN_succ]
    cases h : step s with
    | next t =>
      have h2 : Sys2Proof.core.step s = .next t := h
      simpa only [Host.Core.run, h2] using ih t
    | fault f =>
      have h2 : Sys2Proof.core.step s = .fault f := h
      simp only [Host.Core.run, h2]; rfl
    | refused r =>
      have h2 : Sys2Proof.core.step s = .refused r := h
      simp only [Host.Core.run, h2]; rfl

theorem stepN_succ_of_next {n : Nat} {s t : State} (h : step s = .next t) : stepN (n + 1) s = stepN n t := by
  rw [stepN_succ, h]

theorem stepN_add (m n : Nat) {s t : State} (h : stepN m s = .next t) : stepN (m + n) s = stepN n t := by
  induction m generalizing s with
  | zero => cases h; simp
  | succ m ih =>
    rw [stepN_succ] at h
    rw [show m + 1 + n = m + n + 1 by omega, stepN_succ]
    cases hs : step s with
    | next u => rw [hs] at h; exact ih h
    | fault f => rw [hs] at h; cases h
    | refused r => rw [hs] at h; cases h

theorem State.quiet_iff (s : State) : s.quiet = true ↔
    s.script = [] ∧ s.pendFast = false ∧ s.pendSlow = false ∧ s.inIsr = false := by
  simp [State.quiet, and_assoc]

/-- With no refusal recorded, a step takes the script's next event. -/
theorem step_of_event {s : State} (h : s.refusal = none) {ev : Event} {rest : List Event} (hs : s.script = ev :: rest) :
    step s = State.deliver ev { s with script := rest } := by
  simp [step, State.move, h, State.turn, hs]

/-- With no refusal recorded and the script at its end, a step is the block's own. -/
theorem step_of_script_end {s : State} (h : s.refusal = none) (hs : s.script = []) : step s = s.ownMove := by
  simp [step, State.move, h, State.turn, hs]

/-- A quiet step with nothing recorded is the main context's. -/
theorem step_of_quiet {s : State} (h : s.quiet = true) (hm : s.mark = none) : step s = s.mainMove := by
  obtain ⟨h1, h2, h3, h4⟩ := (State.quiet_iff s).1 h
  simp [step_of_script_end (State.refusal_of_clear hm) h1, State.ownMove, h4, State.fastTurn, h2, h3]

/-- A quiet step of an operation in progress is its next micro-step. -/
theorem step_of_quiet_busy {s : State} (h : s.quiet = true) (hb : s.busy = true) (hm : s.mark = none) :
    step s = .next s.microStep := by
  simp [step_of_quiet h hm, State.mainMove, State.mainTurn_of_clear hm, hb]

/-! ## Every way a step can end in a next state -/

/-- Inversion of the step of the block's own. -/
theorem State.ownMove_next {s t : State} (h : s.ownMove = .next t) :
    (s.inIsr = true ∧ t = s.leaveHandler) ∨
    (s.inIsr = false ∧ s.fastTurn = true ∧
      t = ((State.sampleButtons s.inp.up s.inp.enter s.inp.down) (s.enterHandler .fast)).leaveHandler) ∨
    (s.inIsr = false ∧ s.fastTurn = false ∧ s.pendSlow = true ∧ t = (s.enterHandler .slow).setConvDue.leaveHandler) ∨
    (s.inIsr = false ∧ s.pendFast = false ∧ s.pendSlow = false ∧ s.mark = none ∧
      ((s.busy = true ∧ t = s.microStep) ∨ (s.busy = false ∧ t = s))) := by
  unfold State.ownMove at h
  split at h
  · next hi => cases h; exact .inl ⟨hi, rfl⟩
  · next hi =>
    have hi : s.inIsr = false := by simpa using hi
    split at h
    · next hf =>
      refine .inr (.inl ⟨hi, hf, ?_⟩)
      simp [execTickFast, State.runHandler, hi, State.readIn, PerButton.get] at h
      exact h.symm
    · next hf =>
      have hf : s.fastTurn = false := by simpa using hf
      split at h
      · next hp =>
        refine .inr (.inr (.inl ⟨hi, hf, hp, ?_⟩))
        simp [execTickSlow, State.runHandler, hi] at h
        exact h.symm
      · next hp =>
        have hp : s.pendSlow = false := by simpa using hp
        refine .inr (.inr (.inr ⟨hi, ?_, hp, ?_⟩))
        · simpa [State.fastTurn, hp] using hf
        · obtain ⟨hm, h⟩ := State.mainTurn_next h
          refine ⟨hm, ?_⟩
          split at h
          · next hb => cases h; exact .inl ⟨hb, rfl⟩
          · next hb => cases h; exact .inr ⟨by simpa using hb, rfl⟩

/-- Inversion of what a word asks for: a next state is that of an instruction. -/
theorem State.request_next {s t : State} {w : ReqWord} (h : s.request w = .next t) :
    ∃ i, decodeRequest w = .ok i ∧ exec i s = .next t := by
  unfold State.request at h
  split at h
  · next i hi => exact ⟨i, hi, h⟩
  · unfold State.refuseReserved at h; split at h <;> cases h

/-- Inversion of a presented word: nothing was recorded, and it ran its instruction or its refusal is recorded now. -/
theorem State.present_next {s t : State} {w : ReqWord} (h : s.present w = .next t) :
    s.mark = none ∧ ((∃ i, decodeRequest w = .ok i ∧ exec i s = .next t) ∨
      ∃ r, s.request w = .refused r ∧ t = s.recordRefusal r) := by
  obtain ⟨hm, h⟩ := State.mainTurn_next h
  exact ⟨hm, (State.recordIn_next h).imp State.request_next id⟩

/-- Inversion of the host's clearing: nothing was recorded, and the flag is cleared unless an operation blocks the host. -/
theorem State.clearDue_next {s t : State} (h : s.clearDue = .next t) :
    s.mark = none ∧ t = { s with convDue := s.busy && s.convDue } := by
  obtain ⟨hm, h⟩ := State.mainTurn_next h
  refine ⟨hm, ?_⟩
  split at h
  · next hb =>
    cases h
    have hc : (s.busy && s.convDue) = s.convDue := by simp [hb]
    rw [hc]
  · next hb =>
    cases h
    simp [hb]

/-- Inversion of the step: no refusal was recorded, and the script's next event has been delivered, or the block has
done a step of its own. -/
theorem step_next {s t : State} (h : step s = .next t) : s.refusal = none ∧ (
    (s.script = [] ∧ s.ownMove = .next t) ∨
    (∃ rest, s.script = .go :: rest ∧ State.ownMove { s with script := rest } = .next t) ∨
    (∃ w i rest, s.script = .request w :: rest ∧ s.mark = none ∧ decodeRequest w = .ok i ∧
      exec i { s with script := rest } = .next t) ∨
    (∃ w r rest, s.script = .request w :: rest ∧ s.mark = none ∧
      State.request w { s with script := rest } = .refused r ∧ t = State.recordRefusal r { s with script := rest }) ∨
    (∃ src rest, s.script = .tick src :: rest ∧ t = State.raiseTick src { s with script := rest }) ∨
    (∃ a b c rest, s.script = .levels a b c :: rest ∧ t = { s with inp := ⟨a, b, c⟩, script := rest }) ∨
    (∃ rest, s.script = .clearDue :: rest ∧ s.mark = none ∧
      t = { s with convDue := s.busy && s.convDue, script := rest }) ∨
    (∃ rest, s.script = .rst :: rest ∧ t = State.afterReset { s with script := rest })) := by
  unfold step State.move at h
  split at h
  · cases h
  · next hr =>
    refine ⟨hr, ?_⟩
    unfold State.turn at h
    split at h
    · next hs => exact .inl ⟨hs, h⟩
    · next ev rest hs =>
      refine .inr ?_
      cases ev with
      | go => exact .inl ⟨rest, hs, h⟩
      | request w =>
        refine .inr ?_
        rcases State.present_next h with ⟨hm, ⟨i, hi, he⟩ | ⟨r, hr, ht⟩⟩
        · exact .inl ⟨w, i, rest, hs, hm, hi, he⟩
        · exact .inr (.inl ⟨w, r, rest, hs, hm, hr, ht⟩)
      | tick src => cases h; exact .inr (.inr (.inr (.inl ⟨src, rest, hs, rfl⟩)))
      | levels a b c => cases h; exact .inr (.inr (.inr (.inr (.inl ⟨a, b, c, rest, hs, rfl⟩))))
      | clearDue =>
        obtain ⟨hm, ht⟩ := State.clearDue_next h
        exact .inr (.inr (.inr (.inr (.inr (.inl ⟨rest, hs, hm, ht⟩)))))
      | rst => cases h; exact .inr (.inr (.inr (.inr (.inr (.inr ⟨rest, hs, rfl⟩)))))

end Sys2Proof.Machine
end

