-- ==== Sys2Proof/Laws/Bus.lean ====
section
/-!
SUPPORT. The undisturbed run of a bus program: as many steps as micro-steps, with the program's effect (R39, R126).
-/

namespace Sys2Proof.Machine

/-- Nothing disturbs the sequencer, and it is at work. -/
def State.running (s : State) : Prop := s.quiet = true ∧ s.busy = true ∧ s.mark = none

theorem State.running_step {s : State} (h : s.running) : step s = .next s.microStep :=
  step_of_quiet_busy h.1 h.2.1 h.2.2

/-- `running` looks at six fields only. -/
theorem State.running_congr {s t : State} (h : s.running) (h1 : t.script = s.script) (h2 : t.pendFast = s.pendFast)
    (h3 : t.pendSlow = s.pendSlow) (h4 : t.inIsr = s.inIsr) (h5 : t.busy = s.busy) (h6 : t.mark = s.mark) :
    t.running := by
  simp only [State.running, State.quiet] at *
  simp_all

/-- One bus micro-step with something left after it. -/
theorem State.microStep_bus {s : State} {p : Prim} {m : Micro} {ms : List Micro} (h : s.todo = .bus p :: m :: ms) :
    s.microStep = { p.apply s with upc := s.upc + 1, todo := m :: ms } := by
  simp [State.microStep, h, State.micro, State.countStep]

/-- The last bus micro-step of an operation. -/
theorem State.microStep_bus_last {s : State} {p : Prim} (h : s.todo = [.bus p]) :
    s.microStep = { p.apply s with upc := s.upc + 1, todo := [], busy := false, result := 0 } := by
  simp [State.microStep, h, State.micro, State.countStep, State.endOp]

/-- A bus micro-step does not see the sequencer's bookkeeping. -/
theorem Prim.apply_frame (p : Prim) (s : State) (n : Nat) (ms : List Micro) :
    p.apply { s with upc := n, todo := ms } = { p.apply s with upc := n, todo := ms } := by
  cases p with
  | line v l => rfl
  | data x j => fin_cases j <;> rfl
  | delay d => rfl

theorem State.applyAll_frame (ps : List Prim) (s : State) (n : Nat) (ms : List Micro) :
    State.applyAll ps { s with upc := n, todo := ms } = { s.applyAll ps with upc := n, todo := ms } := by
  induction ps generalizing s with
  | nil => rfl
  | cons p ps ih => rw [State.applyAll_cons, Prim.apply_frame, ih, State.applyAll_cons]

/-- A bus program with something left after it. -/
theorem stepN_bus (ps : List Prim) (m : Micro) (ms : List Micro) {s : State} (h : s.running)
    (ht : s.todo = busCode ps ++ m :: ms) :
    stepN ps.length s = .next { s.applyAll ps with upc := s.upc + ps.length, todo := m :: ms } := by
  induction ps generalizing s with
  | nil =>
    have ht : s.todo = m :: ms := ht
    simp [stepN_zero, State.applyAll, ← ht]
  | cons p ps ih =>
    obtain ⟨m', ms', hm⟩ : ∃ m' ms', busCode ps ++ m :: ms = m' :: ms' := by
      cases ps with
      | nil => exact ⟨m, ms, rfl⟩
      | cons q qs => exact ⟨.bus q, busCode qs ++ m :: ms, rfl⟩
    have ht' : s.todo = .bus p :: m' :: ms' := by rw [ht, ← hm]; rfl
    rw [List.length_cons, stepN_succ_of_next (State.running_step h), State.microStep_bus ht']
    rw [ih (State.running_congr h (by simp) (by simp) (by simp) (by simp) (by simp) (by simp)) hm.symm]
    rw [State.applyAll_frame, State.applyAll_cons]
    simp [Nat.add_comm, Nat.add_left_comm]

/-- A bus program that ends its operation. -/
theorem stepN_bus_end (ps : List Prim) (hp : ps ≠ []) {s : State} (h : s.running) (ht : s.todo = busCode ps) :
    stepN ps.length s =
      .next { s.applyAll ps with upc := s.upc + ps.length, todo := [], busy := false, result := 0 } := by
  obtain ⟨qs, q, rfl⟩ : ∃ qs q, ps = qs ++ [q] := ⟨ps.dropLast, ps.getLast hp, (List.dropLast_append_getLast hp).symm⟩
  have ht' : s.todo = busCode qs ++ .bus q :: [] := by rw [ht]; simp [busCode]
  have h1 := stepN_bus qs (.bus q) [] h ht'
  rw [List.length_append, stepN_add _ _ h1]
  have h2 : State.running { s.applyAll qs with upc := s.upc + qs.length, todo := [.bus q] } :=
    State.running_congr h (by simp) (by simp) (by simp) (by simp) (by simp) (by simp)
  rw [List.length_singleton, stepN_succ_of_next (State.running_step h2), State.microStep_bus_last rfl, stepN_zero]
  rw [Prim.apply_frame, State.applyAll_append]
  rfl

/-- At every micro-step of a bus program the sequencer is still busy. -/
theorem stepN_bus_busy (ps : List Prim) (ms : List Micro) {s : State} (h : s.running) (ht : s.todo = busCode ps ++ ms)
    {k : Nat} (hk : k < ps.length) : ∃ v, stepN k s = .next v ∧ v.busy = true := by
  have hs : ps = ps.take k ++ ps[k] :: ps.drop (k + 1) := by
    rw [List.getElem_cons_drop, List.take_append_drop]
  have ht' : s.todo = busCode (ps.take k) ++ .bus ps[k] :: (busCode (ps.drop (k + 1)) ++ ms) := by
    have hc : busCode ps = busCode (ps.take k) ++ .bus ps[k] :: busCode (ps.drop (k + 1)) := by
      conv_lhs => rw [hs]
      simp only [busCode, List.map_append, List.map_cons]
    rw [ht, hc, List.append_assoc, List.cons_append]
  have h1 := stepN_bus _ _ _ h ht'
  rw [List.length_take_of_le (Nat.le_of_lt hk)] at h1
  exact ⟨_, h1, by simpa using h.2.1⟩

end Sys2Proof.Machine
end

