-- ==== Sys2Proof/Laws/PerInstr.lean ====
section
/-!
SUPPORT. Statements per instruction. `FixedBits`: the code of an instruction carries the fixed bits its row of
spec/opcode_table.json gives it, written out here from the table.
-/

namespace Sys2Proof.Laws.FixedBits

/-- A row's fixed bits: under `mask` the code is `pattern`. -/
inductive Row where
  | request (mask pattern : BitVec 64)
  | command (mask pattern : BitVec 8)
  | noBits
  deriving DecidableEq, Repr

/-- The rows of spec/opcode_table.json. -/
def row : Instr → Row
  | .lcdInit => .request 0xFFFFFFFFFFFFFFFF 0x1000000000000000
  | .lcdCmd _ => .request 0xFFFFFFFFFFFFFF00 0x2000000000000000
  | .lcdChr _ => .request 0xFFFFFFFFFFFFFF00 0x3000000000000000
  | .lcdGotoxy _ _ => .request 0xFFFFFFFFFFFF0000 0x4000000000000000
  | .lcdWrstr _ => .request 0xFFFFFFFFFFFF0000 0x5000000000000000
  | .lcdWrnum _ _ _ _ => .request 0xFF00000000000000 0x6000000000000000
  | .btnPressed _ => .request 0xFFFFFFFFFFFFFFFC 0x8000000000000000
  | .btnRdcnt _ => .request 0xFFFFFFFFFFFFFFFC 0x9000000000000000
  | .reserved0 _ => .request 0xF000000000000000 0x0000000000000000
  | .reserved7 _ => .request 0xF000000000000000 0x7000000000000000
  | .reservedA _ => .request 0xF000000000000000 0xA000000000000000
  | .reservedB _ => .request 0xF000000000000000 0xB000000000000000
  | .reservedC _ => .request 0xF000000000000000 0xC000000000000000
  | .reservedD _ => .request 0xF000000000000000 0xD000000000000000
  | .reservedE _ => .request 0xF000000000000000 0xE000000000000000
  | .reservedF _ => .request 0xF000000000000000 0xF000000000000000
  | .tickFast _ _ _ => .noBits
  | .tickSlow => .noBits
  | .rst => .noBits
  | .lineSet _ => .noBits
  | .lineClr _ => .noBits
  | .lineTgl _ => .noBits
  | .lineRd _ => .noBits
  | .sendNibble _ => .noBits
  | .sendByte _ => .noBits
  | .cmdClear => .command 0xFF 0x01
  | .cmdHome _ => .command 0xFE 0x02
  | .cmdEntry _ _ => .command 0xFC 0x04
  | .cmdDispOff => .command 0xFF 0x08
  | .cmdDispOn => .command 0xFF 0x0C
  | .cmdCursorOn => .command 0xFF 0x0E
  | .cmdCursorBlink => .command 0xFF 0x0F
  | .cmdShiftCurL => .command 0xFF 0x10
  | .cmdShiftCurR => .command 0xFF 0x14
  | .cmdShiftDspL => .command 0xFF 0x18
  | .cmdShiftDspR => .command 0xFF 0x1C
  | .cmdFuncset => .command 0xFF 0x28
  | .cmdSetCgram _ => .command 0xC0 0x40
  | .cmdSetDdram _ => .command 0x80 0x80

/-- A code carries a row's fixed bits; a row without bits has no code (R61). -/
def carries : Row → Option Code → Prop
  | .request mask pattern, some (.request w) => w &&& mask = pattern
  | .command mask pattern, some (.command b) => b &&& mask = pattern
  | .noBits, none => True
  | _, _ => False

/-- What is said of an instruction. -/
def Statement (i : Instr) : Prop := carries (row i) (encode i)

/-- A mask put together like the word acts on each part. -/
theorem cat_and {n m : Nat} (a c : BitVec n) (b d : BitVec m) : (a ++ b) &&& (c ++ d) = (a &&& c) ++ (b &&& d) := by
  ext i hi
  simp only [BitVec.getElem_and, BitVec.getElem_append]
  split <;> simp

theorem lcdInit : Statement .lcdInit := rfl
theorem lcdCmd (byte : Byte) : Statement (.lcdCmd byte) := by
  unfold Statement carries row encode
  revert byte
  decide
theorem lcdChr (byte : Byte) : Statement (.lcdChr byte) := by
  unfold Statement carries row encode
  revert byte
  decide
theorem lcdGotoxy (col row : Byte) : Statement (.lcdGotoxy col row) := by
  show (0x4#4 ++ 0#44 ++ row ++ col : BitVec 64) &&& (0xF#4 ++ 0xFFFFFFFFFFF#44 ++ 0x00#8 ++ 0x00#8) = 0x4000000000000000
  simp only [cat_and, BitVec.and_zero]
  rfl
theorem lcdWrstr (addr : BitVec 16) : Statement (.lcdWrstr addr) := by
  show (0x5#4 ++ 0#44 ++ addr : BitVec 64) &&& (0xF#4 ++ 0xFFFFFFFFFFF#44 ++ 0x0000#16) = 0x5000000000000000
  simp only [cat_and, BitVec.and_zero]
  rfl
theorem lcdWrnum (value : BitVec 32) (width fill base : Byte) : Statement (.lcdWrnum value width fill base) := by
  show (0x6#4 ++ 0#4 ++ base ++ fill ++ width ++ value : BitVec 64) &&&
    (0xF#4 ++ 0xF#4 ++ 0#8 ++ 0#8 ++ 0#8 ++ 0#32) = 0x6000000000000000
  simp only [cat_and, BitVec.and_zero]
  rfl
theorem btnPressed (k : BitVec 2) : Statement (.btnPressed k) := by
  unfold Statement carries row encode
  revert k
  decide
theorem btnRdcnt (k : BitVec 2) : Statement (.btnRdcnt k) := by
  unfold Statement carries row encode
  revert k
  decide
theorem reserved0 (rest : BitVec 60) : Statement (.reserved0 rest) := by
  show (0x0#4 ++ rest : BitVec 64) &&& (0xF#4 ++ 0#60) = 0x0000000000000000
  simp only [cat_and, BitVec.and_zero]
  rfl
theorem reserved7 (rest : BitVec 60) : Statement (.reserved7 rest) := by
  show (0x7#4 ++ rest : BitVec 64) &&& (0xF#4 ++ 0#60) = 0x7000000000000000
  simp only [cat_and, BitVec.and_zero]
  rfl
theorem reservedA (rest : BitVec 60) : Statement (.reservedA rest) := by
  show (0xA#4 ++ rest : BitVec 64) &&& (0xF#4 ++ 0#60) = 0xA000000000000000
  simp only [cat_and, BitVec.and_zero]
  rfl
theorem reservedB (rest : BitVec 60) : Statement (.reservedB rest) := by
  show (0xB#4 ++ rest : BitVec 64) &&& (0xF#4 ++ 0#60) = 0xB000000000000000
  simp only [cat_and, BitVec.and_zero]
  rfl
theorem reservedC (rest : BitVec 60) : Statement (.reservedC rest) := by
  show (0xC#4 ++ rest : BitVec 64) &&& (0xF#4 ++ 0#60) = 0xC000000000000000
  simp only [cat_and, BitVec.and_zero]
  rfl
theorem reservedD (rest : BitVec 60) : Statement (.reservedD rest) := by
  show (0xD#4 ++ rest : BitVec 64) &&& (0xF#4 ++ 0#60) = 0xD000000000000000
  simp only [cat_and, BitVec.and_zero]
  rfl
theorem reservedE (rest : BitVec 60) : Statement (.reservedE rest) := by
  show (0xE#4 ++ rest : BitVec 64) &&& (0xF#4 ++ 0#60) = 0xE000000000000000
  simp only [cat_and, BitVec.and_zero]
  rfl
theorem reservedF (rest : BitVec 60) : Statement (.reservedF rest) := by
  show (0xF#4 ++ rest : BitVec 64) &&& (0xF#4 ++ 0#60) = 0xF000000000000000
  simp only [cat_and, BitVec.and_zero]
  rfl
theorem tickFast (in0 in1 in2 : Level) : Statement (.tickFast in0 in1 in2) := trivial
theorem tickSlow : Statement .tickSlow := trivial
theorem rst : Statement .rst := trivial
theorem lineSet (l : Line) : Statement (.lineSet l) := trivial
theorem lineClr (l : Line) : Statement (.lineClr l) := trivial
theorem lineTgl (l : Line) : Statement (.lineTgl l) := trivial
theorem lineRd (k : Button) : Statement (.lineRd k) := trivial
theorem sendNibble (n : Nibble) : Statement (.sendNibble n) := trivial
theorem sendByte (b : Byte) : Statement (.sendByte b) := trivial
theorem cmdClear : Statement .cmdClear := rfl
theorem cmdHome (x : BitVec 1) : Statement (.cmdHome x) := by
  unfold Statement carries row encode
  revert x
  decide
theorem cmdEntry (i d : BitVec 1) : Statement (.cmdEntry i d) := by
  unfold Statement carries row encode
  revert i d
  decide
theorem cmdDispOff : Statement .cmdDispOff := rfl
theorem cmdDispOn : Statement .cmdDispOn := rfl
theorem cmdCursorOn : Statement .cmdCursorOn := rfl
theorem cmdCursorBlink : Statement .cmdCursorBlink := rfl
theorem cmdShiftCurL : Statement .cmdShiftCurL := rfl
theorem cmdShiftCurR : Statement .cmdShiftCurR := rfl
theorem cmdShiftDspL : Statement .cmdShiftDspL := rfl
theorem cmdShiftDspR : Statement .cmdShiftDspR := rfl
theorem cmdFuncset : Statement .cmdFuncset := rfl
theorem cmdSetCgram (a : BitVec 6) : Statement (.cmdSetCgram a) := by
  unfold Statement carries row encode
  revert a
  decide
theorem cmdSetDdram (a : BitVec 7) : Statement (.cmdSetDdram a) := by
  unfold Statement carries row encode
  revert a
  decide

end Sys2Proof.Laws.FixedBits
end

