-- ==== Sys2Proof/Laws/Requests.lean ====
section
/-!
SUPPORT. What the decoder of request words can answer, and what a request needs to be accepted.
-/

namespace Sys2Proof.Machine

/-- An instruction that is one of the reserved opcodes. -/
def isReserved : Instr → Bool
  | .reserved0 _ | .reserved7 _ | .reservedA _ | .reservedB _ => true
  | .reservedC _ | .reservedD _ | .reservedE _ | .reservedF _ => true
  | _ => false

theorem ifZero_ok {n : Nat} {z : BitVec n} {w : ReqWord} {i j : Instr} (h : ifZero z w i = .ok j) : z = 0 ∧ j = i := by
  unfold ifZero at h
  split at h
  · next hz => cases h; exact ⟨hz, rfl⟩
  · cases h

theorem decodeK_ok {w : ReqWord} {f : BitVec 2 → Instr} {j : Instr} (h : decodeK w f = .ok j) :
    w.extractLsb' 2 58 = 0 ∧ w.extractLsb' 0 2 ≠ 3#2 ∧ j = f (w.extractLsb' 0 2) := by
  unfold decodeK at h
  split at h
  · next hz =>
    split at h
    · cases h
    · next hk => cases h; exact ⟨hz, hk, rfl⟩
  · cases h

/-- A decoded request word names a request or a reserved opcode, nothing else. -/
theorem decodeRequest_kind {w : ReqWord} {i : Instr} (h : decodeRequest w = .ok i) :
    isRequest i = true ∨ isReserved i = true := by
  unfold decodeRequest at h
  split at h
  all_goals
    first
    | (cases h; exact .inr rfl)
    | (obtain ⟨_, rfl⟩ := ifZero_ok h; exact .inl rfl)
    | (obtain ⟨_, _, rfl⟩ := decodeK_ok h; exact .inl rfl)

theorem refuseReserved_not_next (w : ReqWord) (s t : State) : s.refuseReserved w ≠ .next t := by
  unfold State.refuseReserved
  split <;> intro h <;> cases h

/-- A reserved opcode never answers a next state (R50). -/
theorem exec_reserved {i : Instr} (h : isReserved i = true) (s t : State) : exec i s ≠ .next t := by
  cases i <;> first | exact refuseReserved_not_next _ s t | cases h

/-- Inversion of a request: it was accepted by a ready state, and has started some micro-steps (R16, R148). -/
theorem exec_request_next {i : Instr} {s t : State} (hi : isRequest i = true) (h : exec i s = .next t) :
    s.ready = true ∧ ∃ w ops, t = s.start w ops := by
  have issue : ∀ {w ops}, s.issue w ops = .next t → s.ready = true ∧ ∃ w ops, t = s.start w ops := by
    intro w ops he
    obtain ⟨hr, rfl⟩ := State.issue_next he
    exact ⟨hr, w, ops, rfl⟩
  have button : ∀ {w k ops}, issueButton w k ops s = .next t → s.ready = true ∧ ∃ w ops, t = s.start w ops := by
    intro w k ops he
    unfold issueButton at he
    split at he
    · exact issue he
    · exact absurd he (refuseReserved_not_next _ s t)
  cases i with
  | lcdGotoxy col row =>
    obtain ⟨hr, he⟩ := State.gate_next (show execLcdGotoxy col row s = .next t from h)
    split at he
    · cases he; exact ⟨hr, _, _, rfl⟩
    · cases he
  | lcdWrnum value width fill base =>
    obtain ⟨hr, he⟩ := State.gate_next (show execLcdWrnum value width fill base s = .next t from h)
    split at he
    · split at he
      · split at he
        · cases he; exact ⟨hr, _, _, rfl⟩
        · cases he
      · cases he
    · cases he
  | btnPressed k => exact button h
  | btnRdcnt k => exact button h
  | reserved0 | reserved7 | reservedA | reservedB | reservedC | reservedD | reservedE | reservedF => cases hi
  | tickFast | tickSlow | rst => cases hi
  | lineSet | lineClr | lineTgl | lineRd | sendNibble | sendByte => cases hi
  | lcdInit | lcdCmd | lcdChr | lcdWrstr => exact issue h
  | cmdClear | cmdHome | cmdEntry | cmdDispOff | cmdDispOn | cmdCursorOn | cmdCursorBlink => exact issue h
  | cmdShiftCurL | cmdShiftCurR | cmdShiftDspL | cmdShiftDspR | cmdFuncset | cmdSetCgram | cmdSetDdram => exact issue h

/-- Inversion of a presented word (R16). -/
theorem exec_decoded_next {w : ReqWord} {i : Instr} {s t : State} (hd : decodeRequest w = .ok i)
    (h : exec i s = .next t) : s.ready = true ∧ ∃ w' ops, t = s.start w' ops := by
  rcases decodeRequest_kind hd with hi | hi
  · exact exec_request_next hi h
  · exact absurd h (exec_reserved hi s t)

end Sys2Proof.Machine
end

