-- ==== Sys2Proof/Laws/Sequencer.lean ====
section
/-!
SUPPORT. What a micro-step can never change, whichever it is, and what going on with the rest of an operation does.
-/

namespace Sys2Proof.Machine

/-- Going on leaves the lines alone, keeps exactly the rest, and ends the operation only when nothing is left. -/
theorem State.goOn_facts (rest : List Micro) (s : State) :
    (s.goOn rest).lines = s.lines ∧ (s.goOn rest).todo = rest ∧
      (s.busy = true → (s.goOn rest).busy = false → rest = []) := by
  cases rest with
  | nil => exact ⟨rfl, rfl, fun _ _ => rfl⟩
  | cons m ms => exact ⟨rfl, rfl, fun h h2 => absurd (h.symm.trans h2) (by decide)⟩

/-- The fields that belong to the environment, the handlers or the run: no micro-step changes any of them. -/
theorem State.microStep_outside (s : State) :
    s.microStep.cnt = s.cnt ∧ s.microStep.convDue = s.convDue ∧ s.microStep.cfg = s.cfg ∧
    s.microStep.txt = s.txt ∧ s.microStep.inp = s.inp ∧ s.microStep.script = s.script ∧
    s.microStep.pendFast = s.pendFast ∧ s.microStep.pendSlow = s.pendSlow ∧ s.microStep.inIsr = s.inIsr ∧
    s.microStep.lineDir = s.lineDir ∧ s.microStep.inDir = s.inDir ∧ s.microStep.req = s.req ∧
    s.microStep.rdValue = s.rdValue ∧ s.microStep.resets = s.resets := by
  unfold State.microStep
  split
  · simp
  · next m rest _ =>
    cases m <;> simp only [State.micro]
    · simp
    · unfold State.textMicro
      split
      · simp
      · split <;> simp
    · split <;> simp
    · split <;> simp
    · simp

@[simp] theorem State.microStep_cnt (s : State) : s.microStep.cnt = s.cnt := s.microStep_outside.1
@[simp] theorem State.microStep_convDue (s : State) : s.microStep.convDue = s.convDue := s.microStep_outside.2.1
@[simp] theorem State.microStep_cfg (s : State) : s.microStep.cfg = s.cfg := s.microStep_outside.2.2.1
@[simp] theorem State.microStep_txt (s : State) : s.microStep.txt = s.txt := s.microStep_outside.2.2.2.1
@[simp] theorem State.microStep_script (s : State) : s.microStep.script = s.script :=
  s.microStep_outside.2.2.2.2.2.1
@[simp] theorem State.microStep_inIsr (s : State) : s.microStep.inIsr = s.inIsr :=
  s.microStep_outside.2.2.2.2.2.2.2.2.1

/-- An undisturbed micro-step leaves the sequencer undisturbed. -/
theorem State.microStep_quiet {s : State} (h : s.quiet = true) : s.microStep.quiet = true := by
  obtain ⟨-, -, -, -, -, h1, h2, h3, h4, -⟩ := s.microStep_outside
  simpa only [State.quiet, h1, h2, h3, h4] using h

/-- One bus micro-step only adds to the traces (R5). -/
theorem Prim.apply_traces (p : Prim) (s : State) :
    s.lineTrace <+: (p.apply s).lineTrace ∧ s.xferTrace <+: (p.apply s).xferTrace := by
  cases p with
  | line v l => exact ⟨⟨_, rfl⟩, ⟨_, rfl⟩⟩
  | data x j => fin_cases j <;> exact ⟨⟨_, rfl⟩, List.prefix_refl _⟩
  | delay d => exact ⟨⟨_, rfl⟩, ⟨_, rfl⟩⟩

end Sys2Proof.Machine
end

