-- ==== Sys2Proof/Laws/Text.lean ====
section
/-!
SUPPORT. The text space: its canonical form is kept by every operation over it, and a read gives what was put.
-/

namespace Sys2Proof.Machine

/-- `MemRead` answers a byte exactly inside the space (R31). -/
theorem State.readText_isSome (s : State) (a : Nat) : (s.readText a).isSome = true ↔ a < s.cfg.txtSize := by
  unfold State.readText
  split <;> simp_all

theorem txtWfFrom_mono {size low low' : Nat} {t : List Host.Cell} (h : txtWfFrom size low t = true) (hl : low' ≤ low) :
    txtWfFrom size low' t = true := by
  cases t with
  | nil => rfl
  | cons c r =>
    obtain ⟨a, v⟩ := c
    simp only [txtWfFrom, Bool.and_eq_true, decide_eq_true_eq] at h ⊢
    exact ⟨⟨⟨by omega, h.1.1.2⟩, h.1.2⟩, h.2⟩

/-- Below its first listed address a canonical content reads as the default. -/
theorem txtRead_below {size low a : Nat} {t : List Host.Cell} (h : txtWfFrom size low t = true) (ha : a < low) :
    txtRead t a = txtDefault := by
  induction t generalizing low with
  | nil => rfl
  | cons c r ih =>
    obtain ⟨b, v⟩ := c
    simp only [txtWfFrom, Bool.and_eq_true, decide_eq_true_eq] at h
    rw [txtRead, if_neg (by omega)]
    exact ih h.2 (by omega)

theorem txtPut_wf_from {size low a : Nat} {v : Byte} {t : List Host.Cell} (h : txtWfFrom size low t = true)
    (hl : low ≤ a) (ha : a < size) : txtWfFrom size low (txtPut a v t) = true := by
  induction t generalizing low with
  | nil =>
    unfold txtPut
    split
    · rfl
    · next hv => simp [txtWfFrom, hl, ha, hv]
  | cons c r ih =>
    obtain ⟨b, u⟩ := c
    have h' := h
    simp only [txtWfFrom, Bool.and_eq_true, decide_eq_true_eq, bne_iff_ne] at h
    obtain ⟨⟨⟨h1, h2⟩, h3⟩, h4⟩ := h
    unfold txtPut
    split_ifs with h5 h6 h7 h8
    · exact h'
    · simp only [txtWfFrom, Bool.and_eq_true, decide_eq_true_eq, bne_iff_ne]
      exact ⟨⟨⟨hl, ha⟩, h6⟩, ⟨⟨⟨by omega, h2⟩, h3⟩, h4⟩⟩
    · exact txtWfFrom_mono h4 (by omega)
    · subst h7
      simp only [txtWfFrom, Bool.and_eq_true, decide_eq_true_eq, bne_iff_ne]
      exact ⟨⟨⟨hl, ha⟩, h8⟩, h4⟩
    · simp only [txtWfFrom, Bool.and_eq_true, decide_eq_true_eq, bne_iff_ne]
      exact ⟨⟨⟨h1, h2⟩, h3⟩, ih h4 (by omega)⟩

/-- Giving the content a byte inside the space keeps the canonical form. -/
theorem txtPut_wf {size a : Nat} {v : Byte} {t : List Host.Cell} (h : Memory.wf size t = true) (ha : a < size) :
    Memory.wf size (txtPut a v t) = true :=
  txtPut_wf_from h (Nat.zero_le a) ha

/-- A read after a put gives the byte at its own address, and what it gave before at every other. -/
theorem txtRead_txtPut {size low a : Nat} {v : Byte} {t : List Host.Cell} (h : txtWfFrom size low t = true) (c : Nat) :
    txtRead (txtPut a v t) c = if c = a then v else txtRead t c := by
  induction t generalizing low with
  | nil =>
    unfold txtPut
    by_cases hv : v = txtDefault
    · simp [hv, txtRead]
    · simp [hv, txtRead, eq_comm]
  | cons d r ih =>
    obtain ⟨b, u⟩ := d
    simp only [txtWfFrom, Bool.and_eq_true, decide_eq_true_eq] at h
    by_cases hc : c = a
    · subst hc
      rw [if_pos rfl]
      unfold txtPut
      by_cases h1 : c < b
      · by_cases h2 : v = txtDefault
        · rw [if_pos h1, if_pos h2, h2, txtRead, if_neg (by omega)]
          exact txtRead_below h.2 (by omega)
        · rw [if_pos h1, if_neg h2, txtRead, if_pos rfl]
      · by_cases h3 : c = b
        · by_cases h2 : v = txtDefault
          · rw [if_neg h1, if_pos h3, if_pos h2, h2]
            exact txtRead_below h.2 (by omega)
          · rw [if_neg h1, if_pos h3, if_neg h2, txtRead, if_pos rfl]
        · rw [if_neg h1, if_neg h3, txtRead, if_neg (by omega), ih h.2, if_pos rfl]
    · rw [if_neg hc]
      unfold txtPut
      by_cases h1 : a < b
      · by_cases h2 : v = txtDefault
        · rw [if_pos h1, if_pos h2]
        · rw [if_pos h1, if_neg h2, txtRead, if_neg (fun e => hc e.symm)]
      · by_cases h3 : a = b
        · have hb : b ≠ c := fun e => hc (e.symm.trans h3.symm)
          by_cases h2 : v = txtDefault
          · rw [if_neg h1, if_pos h3, if_pos h2, txtRead, if_neg hb]
          · rw [if_neg h1, if_pos h3, if_neg h2, txtRead, if_neg (fun e => hc e.symm), txtRead, if_neg hb]
        · rw [if_neg h1, if_neg h3, txtRead, txtRead, ih h.2, if_neg hc]

/-- The content of the state after reset is canonical. -/
theorem State.reset_text_wf : Memory.wf State.reset.cfg.txtSize State.reset.txt = true := rfl

end Sys2Proof.Machine
end

