-- ==== Sys2Proof/Tests/Slice0.lean ====
section
/-!
SUPPORT. Tests of one decode or one step each, with results from spec/95_test_vectors.md (V…) or worked out by hand
from the rule named, and for every obligation with hypotheses a concrete state and operands that meet them.
-/

namespace Sys2Proof.Tests

open Sys2Proof.Machine

/-- A field of the next state, if there is one. -/
def got {α : Type} (o : Host.Outcome State Fault Refusal) (f : State → α) : Option α :=
  match o with
  | .next t => some (f t)
  | .fault _ => none
  | .refused _ => none

/-- The refusal, if it is one. -/
def refusedBy (o : Host.Outcome State Fault Refusal) : Option Refusal :=
  match o with
  | .next _ => none
  | .fault _ => none
  | .refused r => some r

/-- The model fault, if the machine stopped with one. -/
def faultOf (o : Host.Outcome State Fault Refusal) : Option Fault :=
  match o with
  | .next _ => none
  | .fault f => some f
  | .refused _ => none

/-! ## Well-formedness -/

theorem test_pressed_three_is_ill_formed : Instr.wellFormed (.btnPressed 3) = false := by decide
theorem test_rdcnt_three_is_ill_formed : Instr.wellFormed (.btnRdcnt 3) = false := by decide
theorem test_pressed_two_is_well_formed : Instr.wellFormed (.btnPressed 2) = true := by decide

/-! ## Decoding: every row with a bit pattern, the words written out from R46 to R50 and R56 -/

theorem test_decode_display_requests :
    decode (.request 0x1000000000000000) = .ok .lcdInit ∧
    decode (.request 0x20000000000000FF) = .ok (.lcdCmd 0xFF) ∧
    decode (.request 0x3000000000000041) = .ok (.lcdChr 0x41) ∧
    decode (.request 0x4000000000000213) = .ok (.lcdGotoxy 19 2) ∧
    decode (.request 0x50000000000000FE) = .ok (.lcdWrstr 0x00FE) ∧
    decode (.request 0x60102A04000000FF) = .ok (.lcdWrnum 255 4 0x2A 16) := by decide

theorem test_decode_button_requests :
    decode (.request 0x8000000000000001) = .ok (.btnPressed 1) ∧
    decode (.request 0x9000000000000002) = .ok (.btnRdcnt 2) := by decide

theorem test_decode_reserved :
    decode (.request 0x0000000000000000) = .ok (.reserved0 0) ∧
    decode (.request 0x7000000000000000) = .ok (.reserved7 0) ∧
    decode (.request 0xA000000000000000) = .ok (.reservedA 0) ∧
    decode (.request 0xB000000000000001) = .ok (.reservedB 1) ∧
    decode (.request 0xC000000000000002) = .ok (.reservedC 2) ∧
    decode (.request 0xD800000000000000) = .ok (.reservedD 0x800000000000000) ∧
    decode (.request 0xE000000000000000) = .ok (.reservedE 0) ∧
    decode (.request 0xFFFFFFFFFFFFFFFF) = .ok (.reservedF 0xFFFFFFFFFFFFFFF) := by decide

theorem test_decode_commands :
    decode (.command 0x01) = .ok .cmdClear ∧ decode (.command 0x02) = .ok (.cmdHome 0) ∧
    decode (.command 0x06) = .ok (.cmdEntry 1 0) ∧ decode (.command 0x05) = .ok (.cmdEntry 0 1) ∧
    decode (.command 0x08) = .ok .cmdDispOff ∧ decode (.command 0x0C) = .ok .cmdDispOn ∧
    decode (.command 0x0E) = .ok .cmdCursorOn ∧ decode (.command 0x0F) = .ok .cmdCursorBlink ∧
    decode (.command 0x10) = .ok .cmdShiftCurL ∧ decode (.command 0x14) = .ok .cmdShiftCurR ∧
    decode (.command 0x18) = .ok .cmdShiftDspL ∧ decode (.command 0x1C) = .ok .cmdShiftDspR ∧
    decode (.command 0x28) = .ok .cmdFuncset ∧ decode (.command 0x7F) = .ok (.cmdSetCgram 0x3F) ∧
    decode (.command 0xC5) = .ok (.cmdSetDdram 0x45) := by decide

/-- V61, V65, V67, V68, V71, V57. -/
theorem test_decode_rejects :
    decode (.request 0x1000000000000001) = .error (.mustBeZero 0x1000000000000001) ∧
    decode (.request 0x2000000000000100) = .error (.mustBeZero 0x2000000000000100) ∧
    decode (.request 0x5000000000010000) = .error (.mustBeZero 0x5000000000010000) ∧
    decode (.request 0x6F0A200300000017) = .error (.mustBeZero 0x6F0A200300000017) ∧
    decode (.request 0x8000000000000004) = .error (.mustBeZero 0x8000000000000004) ∧
    decode (.request 0x8000000000000003) = .error (.reservedButton 0x8000000000000003) ∧
    decode (.command 0x20) = .error (.notACommandPattern 0x20) := by decide

/-- What the host asks: a row's bits, and the command byte 0x03 as the home row with `x = 1`. -/
theorem test_decode_table_words :
    decodeTableWord 64 0x3000000000000041 = some (.lcdChr 0x41) ∧ decodeTableWord 8 0x03 = some (.cmdHome 1) ∧
    decodeTableWord 64 0x8000000000000003 = none := by decide

/-- R60: the pseudo-operations with the defaults of R2. -/
theorem test_pseudo_operations :
    pseudoWrnum Config.default 23 3 = .lcdWrnum 23 3 0x20 10 ∧
    pseudoWrnumFill Config.default 5 3 0x30 = .lcdWrnum 5 3 0x30 10 ∧
    pseudoClear Config.default = .lcdCmd 0x01 ∧ pseudoHome Config.default = .lcdCmd 0x02 := by decide

/-- R2: the nominal parameters meet the constraints of its table. -/
theorem test_default_parameters_are_admitted : Config.default.wf = true := by decide

/-! ## Small states -/

/-- Bus levels with E high, as in V3: RS 1, data 0b0100, in the middle of a character. -/
def strobing : State :=
  { State.reset with
    lines := ⟨true, true, false, true, false, false⟩
    busy := true
    req := 0x3000000000000041
    upc := 5
    todo := [.bus (.delay .tEH), .bus (.line false .e), .bus (.delay .tEL)] }

/-- The same with the fall of E next. -/
def falling : State := { strobing with upc := 6, todo := [.bus (.line false .e), .bus (.delay .tEL)] }

/-- A wait on button 1 with its counter at `c`. -/
def waiting (c : Byte) : State :=
  { State.reset with
    cnt := ⟨0, c, 0⟩, busy := true, req := 0x8000000000000001, upc := 1, todo := [.wait .enter] }

/-- The text of P2: "OK" at 0x10, an empty string at 0x20, and "HI" at the very end (P5). -/
def withText : State :=
  { State.reset with
    txt := txtPut 0xFF 0x49 (txtPut 0xFE 0x48 (txtPut 0x20 0x00 (txtPut 0x11 0x4B (txtPut 0x10 0x4F [])))) }

/-- A state with the counters of V55 and the buttons UP and ENTER held. -/
def held : State := { State.reset with cnt := ⟨1, 255, 7⟩, inp := ⟨false, false, true⟩ }

/-- A state with both ticks pending (V74). -/
def bothPending : State :=
  { State.reset with cnt := ⟨3, 0, 0⟩, inp := ⟨false, true, true⟩, pendFast := true, pendSlow := true }

/-- A state whose string ran off the text space (P5). -/
def overrun : State :=
  { withText with busy := true, todo := [.text 0x100], mark := some (.fault (.textOverrun 0x100)) }

/-! ## One step of each instruction -/

/-- V1. -/
theorem test_lineSet : got (exec (.lineSet .e) State.reset) (fun t => (t.lines.e, t.lineTrace, t.xferTrace)) =
    some (true, [.write .e true], []) := by decide

/-- V3. -/
theorem test_lineClr_falls : got (exec (.lineClr .e) strobing) (fun t => (t.lines.e, t.xferTrace)) =
    some (false, [.entry true 0x4]) := by decide

/-- V4. -/
theorem test_lineClr_low : got (exec (.lineClr .e) State.reset) (fun t => (t.lineTrace, t.xferTrace)) =
    some ([.write .e false], []) := by decide

/-- V5. -/
theorem test_lineTgl : got (exec (.lineTgl .rs) strobing) (fun t => (t.lines.rs, t.lineTrace)) =
    some (false, [.write .rs false]) := by decide

/-- V6, V7. -/
theorem test_lineRd : got (exec (.lineRd .enter) held) State.rdValue = some false ∧
    got (exec (.lineRd .down) held) State.rdValue = some true := by decide

/-- R77: nibble 0b0100 with RS 0. -/
theorem test_sendNibble : got (exec (.sendNibble 0x4) State.reset) (fun t => (t.lines, t.transfers)) =
    some (⟨false, false, false, true, false, false⟩, [(false, 0x4)]) := by decide

/-- The two nibbles of V8, with RS high. -/
theorem test_sendByte :
    got (exec (.sendByte 0x41) { State.reset with lines := ⟨true, false, true, true, true, true⟩ })
      (fun t => (t.lines, t.transfers)) =
    some (⟨true, false, false, false, false, true⟩, [(true, 0x4), (true, 0x1)]) := by decide

/-- V19b: ninety-two micro-steps, the first `LINE.CLR RS`. -/
theorem test_lcdInit : got (exec .lcdInit State.reset) (fun t => (t.todo.length, t.todo.head?, t.busy)) =
    some (92, some (.bus (.line false .rs)), true) := by decide

/-- V9, V13: the extra delay for 0x01, none for 0x00. -/
theorem test_lcdCmd : got (exec (.lcdCmd 0x01) State.reset) (fun t => (t.todo.length, t.todo.getLast?)) =
      some (19, some (.bus (.delay .tLong))) ∧
    got (exec (.lcdCmd 0x00) State.reset) (fun t => (t.todo.length, t.todo.getLast?)) =
      some (18, some (.bus (.delay .tSettle))) := by decide

/-- V18: a character is never long. -/
theorem test_lcdChr : got (exec (.lcdChr 0x01) State.reset) (fun t => (t.todo.length, t.todo.head?, t.req)) =
    some (18, some (.bus (.line true .rs)), 0x3000000000000001) := by decide

/-- V21, V22, V24 to V26: the command bytes. -/
theorem test_gotoxy_bytes :
    addrCommand Config.default (displayAddr 5 1) = 0xC5 ∧ addrCommand Config.default (displayAddr 19 2) = 0xA7 ∧
    addrCommand Config.default (displayAddr 0 4) = 0xD4 ∧ addrCommand Config.default (displayAddr 7 255) = 0xDB ∧
    addrCommand Config.default (displayAddr 0x2B 3) = 0xFF := by decide

/-- V28, V29. -/
theorem test_gotoxy_refuses :
    refusedBy (exec (.lcdGotoxy 0x2C 3) State.reset) = some (.columnRange 0x2C 3) ∧
    refusedBy (exec (.lcdGotoxy 0x40 1) State.reset) = some (.columnRange 0x40 1) := by decide

/-- R98: the request only starts the loop; its first read finds 'O' and starts the character. -/
theorem test_lcdWrstr : got (exec (.lcdWrstr 0x10) withText) State.todo = some [.text 0x10] ∧
    got (step { withText with busy := true, todo := [.text 0x10] }) (fun t => (t.todo.length, t.upc)) =
      some (19, 1) := by decide

/-- P5: the read at 0x100 records the fault, and the main context then stops with it. -/
theorem test_wrstr_overrun :
    got (step { withText with busy := true, upc := 36, todo := [.text 0x100] }) (fun t => (t.mark, t.busy, t.upc)) =
      some (some (.fault (.textOverrun 0x100)), true, 36) ∧
    faultOf (step overrun) = some (.textOverrun 0x100) := by decide

/-- V30, V33, V35, V39, V41, V42. -/
theorem test_formatter :
    formatBuffer 23 3 0x20 10 = [0x20, 0x32, 0x33] ∧ formatBuffer 5 3 0x30 10 = [0x30, 0x30, 0x35] ∧
    formatBuffer 100 2 0x20 10 = [0x30, 0x30] ∧ formatBuffer 255 4 0x2A 16 = [0x2A, 0x2A, 0x46, 0x46] ∧
    formatBuffer 35 1 0x20 36 = [0x5A] ∧
    formatBuffer 5 8 0x30 2 = [0x30, 0x30, 0x30, 0x30, 0x30, 0x31, 0x30, 0x31] := by decide

/-- V47, V48, V49, V49b. -/
theorem test_wrnum_domain :
    refusedBy (exec (.lcdWrnum 5 3 0x20 1) State.reset) = some (.base 1) ∧
    refusedBy (exec (.lcdWrnum 5 3 0x20 37) State.reset) = some (.base 37) ∧
    refusedBy (exec (.lcdWrnum 5 3 0x00 10) State.reset) = some .nulFill ∧
    got (exec (.lcdWrnum 5 0 0x00 10) State.reset) (fun t => (t.busy, t.todo)) = some (false, []) := by decide

/-- A parameter record with a narrower value operand (R2). -/
def narrow : State := { State.reset with cfg := { Config.default with valueBits := 16 } }

/-- R46, R49, R50 with `VALUE_BITS` 16: bit 16 of the value is unused, so a word that has it is reserved; the base 37 is
looked at after that. -/
theorem test_wrnum_value_bits :
    narrow.cfg.wf = true ∧ got (exec (.lcdWrnum 0xFFFF 3 0x20 10) narrow) State.busy = some true ∧
    refusedBy (exec (.lcdWrnum 0x10000 3 0x20 37) narrow) = some (.reservedRequest 0x6025200300010000) := by decide

/-- P3, steps 2 and 5: a read of 1 ends with result 0, a read of 2 starts the wait. -/
theorem test_btnPressed :
    got (step { waiting 1 with upc := 0, todo := [.test .enter] }) (fun t => (t.busy, t.result)) = some (false, 0) ∧
    got (step { waiting 2 with upc := 0, todo := [.test .enter] }) (fun t => (t.busy, t.todo)) =
      some (true, [.wait .enter]) := by decide

/-- P3, steps 7 and 9; V57. -/
theorem test_btnPressed_wait :
    got (step (waiting 3)) (fun t => (t.busy, t.todo)) = some (true, [.wait .enter]) ∧
    got (step (waiting 0)) (fun t => (t.busy, t.result)) = some (false, 1) ∧
    refusedBy (exec (.btnPressed 3) State.reset) = some (.reservedRequest 0x8000000000000003) := by decide

/-- V52: the saturated counter of button 2. -/
theorem test_btnRdcnt :
    got (exec (.btnRdcnt 2) held) State.todo = some [.load .down] ∧
    got (step { held with cnt := ⟨0, 0, 255⟩, busy := true, todo := [.load .down] }) (fun t => (t.busy, t.result)) =
      some (false, 255) := by decide

/-- V62 and R50: the word in the refusal. -/
theorem test_reserved :
    refusedBy (exec (.reserved0 0) State.reset) = some (.reservedRequest 0x0000000000000000) ∧
    refusedBy (exec (.reserved7 1) State.reset) = some (.reservedRequest 0x7000000000000001) ∧
    refusedBy (exec (.reservedA 0) State.reset) = some (.reservedRequest 0xA000000000000000) ∧
    refusedBy (exec (.reservedB 0) State.reset) = some (.reservedRequest 0xB000000000000000) ∧
    refusedBy (exec (.reservedC 0) State.reset) = some (.reservedRequest 0xC000000000000000) ∧
    refusedBy (exec (.reservedD 0) State.reset) = some (.reservedRequest 0xD000000000000000) ∧
    refusedBy (exec (.reservedE 0) State.reset) = some (.reservedRequest 0xE000000000000000) ∧
    refusedBy (exec (.reservedF 0) State.reset) = some (.reservedRequest 0xF000000000000000) := by decide

/-- R21, R147: the refusal is recorded, with no other effect, and the run goes no further whatever the script says. -/
theorem test_refusal_is_recorded :
    got (step { waiting 3 with script := [.request 0x1000000000000000, .go] })
      (fun t => (t.mark, t.busy, t.upc, t.script)) = some (some (.refusal .issueWhileBusy), true, 1, [.go]) ∧
    refusedBy (step { State.reset with
      mark := some (.refusal (.base 1)), pendFast := true, script := [.tick .slow] }) = some (.base 1) := by decide

/-- V55. -/
theorem test_tickFast : got (exec (.tickFast false false true) held) State.cnt = some ⟨2, 255, 0⟩ := by decide

/-- R131. -/
theorem test_tickSlow : got (exec .tickSlow bothPending) (fun t => (t.convDue, t.pendSlow, t.cnt)) =
    some (true, false, ⟨3, 0, 0⟩) := by decide

/-- R115: the host's loop is blocked while `BTN.PRESSED` waits, and goes on when it has ended. -/
theorem test_wait_blocks_the_host :
    got (step { waiting 3 with convDue := true, script := [.clearDue] }) (fun t => (t.convDue, t.script)) =
      some (true, []) ∧
    got (step { held with convDue := true, script := [.clearDue] }) State.convDue = some false := by decide

/-- V75. -/
theorem test_rst : got (exec .rst strobing) (fun t => (t.lines, t.busy, t.result, t.todo)) =
    some (⟨false, false, false, false, false, false⟩, false, 0, []) := by decide

/-- V76: one entry, its nibble not specified. -/
theorem test_rst_mid_strobe : got (exec .rst strobing) (fun t => t.xferTrace.length) = some 1 := by decide

/-- R56, R60: the request each symbolic command presents. -/
theorem test_symbolic_commands :
    got (exec .cmdClear State.reset) State.req = some 0x2000000000000001 ∧
    got (exec (.cmdHome 0) State.reset) State.req = some 0x2000000000000002 ∧
    got (exec (.cmdEntry 1 0) State.reset) State.req = some 0x2000000000000006 ∧
    got (exec .cmdDispOff State.reset) State.req = some 0x2000000000000008 ∧
    got (exec .cmdDispOn State.reset) State.req = some 0x200000000000000C ∧
    got (exec .cmdCursorOn State.reset) State.req = some 0x200000000000000E ∧
    got (exec .cmdCursorBlink State.reset) State.req = some 0x200000000000000F := by decide

/-- The same for the other seven. -/
theorem test_symbolic_commands_rest :
    got (exec .cmdShiftCurL State.reset) State.req = some 0x2000000000000010 ∧
    got (exec .cmdShiftCurR State.reset) State.req = some 0x2000000000000014 ∧
    got (exec .cmdShiftDspL State.reset) State.req = some 0x2000000000000018 ∧
    got (exec .cmdShiftDspR State.reset) State.req = some 0x200000000000001C ∧
    got (exec .cmdFuncset State.reset) State.req = some 0x2000000000000028 ∧
    got (exec (.cmdSetCgram 0x3F) State.reset) State.req = some 0x200000000000007F ∧
    got (exec (.cmdSetDdram 0x45) State.reset) State.req = some 0x20000000000000C5 := by decide

/-- The host's second question: a placed row is the very next step. -/
theorem test_withFetchWord :
    got (step (State.reset.withFetchWord 64 0x3000000000000041)) State.req = some 0x3000000000000041 ∧
    got (step (State.reset.withFetchWord 8 0x0F)) State.req = some 0x200000000000000F := by decide

/-- R15: the two predicates at the default thresholds 2 and 20. -/
theorem test_short_and_long :
    (waiting 1).short .enter = false ∧ (waiting 2).short .enter = true ∧
    (waiting 19).long .enter = false ∧ (waiting 20).long .enter = true := by decide

/-- R31: what was put is read; the end of the space is no address. -/
theorem test_text : withText.readText 0x11 = some 0x4B ∧ withText.readText 0x20 = some 0x00 ∧
    withText.readText 0xFF = some 0x49 ∧ withText.readText 0x100 = none ∧
    Memory.wf withText.cfg.txtSize withText.txt = true := by decide

/-! ## Witnesses: states and operands that meet an obligation's hypotheses -/

theorem witness_DecodeOfEncodeIsIdentity :
    Instr.wellFormed (.lcdGotoxy 5 1) = true ∧ encode (.lcdGotoxy 5 1) = some (.request 0x4000000000000105) ∧
    Instr.wellFormed (.cmdHome 1) = true ∧ encode (.cmdHome 1) = some (.command 0x03) := by decide

theorem witness_EncodeOfDecodeIsIdentity :
    decode (.request 0xA000000000000001) = .ok (.reservedA 1) ∧ decode (.command 0x80) = .ok (.cmdSetDdram 0) := by
  decide

/-- A state that is presented a word. -/
def presented (w : ReqWord) : State := { State.reset with script := [.request w] }

theorem witness_ReservedWordIsRefused :
    (presented 0xA000000000000000).script = [.request 0xA000000000000000] ∧
    (presented 0xA000000000000000).busy = false ∧ (presented 0xA000000000000000).mark = none ∧
    reservedWord (presented 0xA000000000000000).cfg 0xA000000000000000 := by
  unfold reservedWord; decide

/-- One word for each clause of R50, the last with `VALUE_BITS` 16. -/
theorem witness_reservedWord :
    let c := Config.default
    reservedWord c 0x0000000000000000 ∧ reservedWord c 0x7000000000000000 ∧ reservedWord c 0xF000000000000000 ∧
    reservedWord c 0x1800000000000000 ∧ reservedWord c 0x2000000000000100 ∧ reservedWord c 0x3800000000000000 ∧
    reservedWord c 0x4000000000010000 ∧ reservedWord c 0x5800000000000000 ∧ reservedWord c 0x6100000000000000 ∧
    reservedWord c 0x8000000000000003 ∧ reservedWord c 0x9000000000000004 ∧
    reservedWord narrow.cfg 0x600A200300010000 := by
  refine ⟨?_, ?_, ?_, ?_, ?_, ?_, ?_, ?_, ?_, ?_, ?_, ?_⟩ <;> (unfold reservedWord; decide)

/-- Words at the edges of what is not reserved. -/
theorem witness_UnreservedWordNamesAnOperation :
    let c := Config.default
    ¬ reservedWord c 0x1000000000000000 ∧ ¬ reservedWord c 0x20000000000000FF ∧ ¬ reservedWord c 0x400000000000FFFF ∧
    ¬ reservedWord c 0x60FFFFFFFFFFFFFF ∧ ¬ reservedWord c 0x9000000000000002 ∧
    ¬ reservedWord narrow.cfg 0x600A20030000FFFF := by
  refine ⟨?_, ?_, ?_, ?_, ?_, ?_⟩ <;> (unfold reservedWord; decide)

theorem witness_OrderOfRefusals_busy :
    { waiting 3 with script := [.request 0xA000000000000000] }.script.head? = some (.request 0xA000000000000000) ∧
    (waiting 3).busy = true ∧ (waiting 3).mark = none := by decide

theorem witness_OrderOfRefusals_operands :
    State.reset.ready = true ∧ 0x7F < rowStart 3 + (0x2C : Byte).toNat ∧ 0x7F < rowStart 0 + (0x80 : Byte).toNat ∧
    narrow.ready = true ∧ 2 ^ narrow.cfg.valueBits ≤ (0x10000 : BitVec 32).toNat ∧
    (0xFFFF : BitVec 32).toNat < 2 ^ narrow.cfg.valueBits ∧
    (0xFFFFFFFF : BitVec 32).toNat < 2 ^ State.reset.cfg.valueBits ∧
    (1 : Byte).toNat < 2 ∧ State.reset.cfg.maxBase < (37 : Byte).toNat ∧
    2 ≤ (2 : Byte).toNat ∧ (36 : Byte).toNat ≤ State.reset.cfg.maxBase ∧ (1 : Byte) ≠ 0 := by decide

theorem witness_ReservedInstructionsStop : State.reset.busy = false := by decide

theorem witness_StepRunsTheDecodedInstruction :
    (presented 0x3000000000000041).script = [.request 0x3000000000000041] ∧
    (presented 0x3000000000000041).mark = none ∧
    decodeRequest 0x3000000000000041 = .ok (.lcdChr 0x41) ∧
    decodeTableWord 64 0x3000000000000041 = some (.lcdChr 0x41) ∧
    decodeTableWord 8 (0x03 : Byte).toNat = some (.cmdHome 1) := by decide

/-- A request that is accepted, one that is refused, and a state with a refusal recorded. -/
theorem witness_RefusalIsRecordedAndEndsTheRun :
    (presented 0x3000000000000041).mark = none ∧ decodeRequest 0x3000000000000041 = .ok (.lcdChr 0x41) ∧
    got (exec (.lcdChr 0x41) State.reset) State.busy = some true ∧
    decodeRequest 0x6001200300000005 = .ok (.lcdWrnum 5 3 0x20 1) ∧
    refusedBy (exec (.lcdWrnum 5 3 0x20 1) State.reset) = some (.base 1) ∧
    { State.reset with mark := some (.refusal (.base 1)) }.mark = some (.refusal (.base 1)) := by decide

/-- One request that leaves the block busy, and one without a micro-step. -/
theorem witness_AcceptanceFrame :
    isRequest (.lcdChr 0x41) = true ∧ (got (exec (.lcdChr 0x41) State.reset) State.busy) = some true ∧
    isRequest (.lcdWrnum 7 0 0x20 10) = true ∧
    (got (exec (.lcdWrnum 7 0 0x20 10) State.reset) State.todo) = some [] := by decide

/-- For the display operations: `LcdCmdSendsTheCommand`, `SymbolicCommandsSendTheirByte`, `LcdChrSendsTheCharacter`,
`ClearTwiceLeavesTheLinesAsOnce`, and `LcdInitRunsTheSequence` with the values of R81. -/
theorem witness_display_operations :
    State.reset.quiet = true ∧ State.reset.ready = true ∧ State.reset.cfg.fs8Nib = 0x3 ∧
    State.reset.cfg.fs4Nib = 0x2 ∧ State.reset.cfg.cmdFuncset = 0x28 ∧ State.reset.cfg.cmdDispOn = 0x0C ∧
    State.reset.cfg.cmdClear = 0x01 := by decide

/-- The last admitted column of each row. -/
theorem witness_GotoxySendsTheAddress :
    State.reset.quiet = true ∧ State.reset.ready = true ∧ State.reset.cfg.cmdSetDdram = 0x80 ∧
    rowStart 0 + (0x7F : Byte).toNat ≤ 0x7F ∧ rowStart 1 + (0x3F : Byte).toNat ≤ 0x7F ∧
    rowStart 2 + (0x6B : Byte).toNat ≤ 0x7F ∧ rowStart 3 + (0x2B : Byte).toNat ≤ 0x7F ∧
    rowStart 255 + (0x2B : Byte).toNat ≤ 0x7F := by decide

/-- At the last admitted column of each row the cell is taken, one further it is refused. -/
theorem witness_GotoxyColumnDomain :
    State.reset.ready = true ∧
    refusedBy (exec (.lcdGotoxy 0x7F 0) State.reset) = none ∧
    refusedBy (exec (.lcdGotoxy 0x80 0) State.reset) = some (.columnRange 0x80 0) ∧
    refusedBy (exec (.lcdGotoxy 0x3F 1) State.reset) = none ∧
    refusedBy (exec (.lcdGotoxy 0x6B 2) State.reset) = none ∧
    refusedBy (exec (.lcdGotoxy 0x6C 2) State.reset) = some (.columnRange 0x6C 2) ∧
    refusedBy (exec (.lcdGotoxy 0x2B 255) State.reset) = none ∧
    refusedBy (exec (.lcdGotoxy 0x2C 255) State.reset) = some (.columnRange 0x2C 255) := by decide

/-- "OK" and the empty string of P2. -/
theorem witness_WrstrStreamsTheString :
    withText.quiet = true ∧ withText.ready = true ∧ textAt withText 0x10 [0x4F, 0x4B] ∧
    withText.readText (0x10 + 2) = some withText.cfg.term ∧ textAt withText 0x20 [] ∧
    withText.readText 0x20 = some withText.cfg.term := by
  unfold textAt; decide

/-- "HI" of P5, and a string that starts past the end. -/
theorem witness_WrstrOverrunsAtTheEnd :
    withText.quiet = true ∧ withText.ready = true ∧ textAt withText 0xFE [0x48, 0x49] ∧
    withText.cfg.txtSize ≤ 0xFE + 2 ∧ textAt withText 0x100 [] ∧ withText.cfg.txtSize ≤ 0x100 := by
  unfold textAt; decide

/-- Bases 2 and 36; a positive width, and width 0 with a null fill. -/
theorem witness_WrnumSendsTheField :
    State.reset.quiet = true ∧ State.reset.ready = true ∧ 2 ≤ (2 : Byte).toNat ∧
    (0xFFFFFFFF : BitVec 32).toNat < 2 ^ State.reset.cfg.valueBits ∧
    (36 : Byte).toNat ≤ State.reset.cfg.maxBase ∧ (0x20 : Byte) ≠ 0 ∧ (0 : Byte) = 0 := by decide

theorem witness_FormatterLoopEqualsClosedForm :
    2 ≤ 2 ∧ formatBuffer 5 8 0x30 2 = [0x30, 0x30, 0x30, 0x30, 0x30, 0x31, 0x30, 0x31] := by decide

theorem witness_FormatterFieldHasNoNull :
    2 ≤ 36 ∧ 36 ≤ 36 ∧ (0x20 : Byte) ≠ 0 ∧ formatBuffer 35 1 0x20 36 = [0x5A] := by decide

/-- The edges of the admitted bases, and the two fills. -/
theorem witness_WrnumDomain :
    State.reset.ready = true ∧ State.reset.cfg.maxBase = 36 ∧
    (5 : BitVec 32).toNat < 2 ^ State.reset.cfg.valueBits ∧
    refusedBy (exec (.lcdWrnum 5 3 0x20 2) State.reset) = none ∧
    refusedBy (exec (.lcdWrnum 5 3 0x20 36) State.reset) = none ∧
    refusedBy (exec (.lcdWrnum 5 3 0x00 37) State.reset) = some (.base 37) ∧
    refusedBy (exec (.lcdWrnum 5 1 0x00 2) State.reset) = some .nulFill ∧
    refusedBy (exec (.lcdWrnum 5 0 0x00 36) State.reset) = none := by decide

/-- The state takes a request undisturbed, with the values of R81, a cell, a string and a field that are admitted; the run
of the empty field adds no delay. -/
theorem witness_LeastDurations :
    withText.quiet = true ∧ withText.ready = true ∧ withText.cfg.cmdSetDdram = 0x80 ∧
    rowStart 2 + (0x6B : Byte).toNat ≤ 0x7F ∧ withText.cfg.fs8Nib = 0x3 ∧ withText.cfg.fs4Nib = 0x2 ∧
    withText.cfg.cmdFuncset = 0x28 ∧ withText.cfg.cmdDispOn = 0x0C ∧ withText.cfg.cmdClear = 0x01 ∧
    textAt withText 0x10 [0x4F, 0x4B] ∧ withText.readText (0x10 + 2) = some withText.cfg.term ∧
    (255 : BitVec 32).toNat < 2 ^ withText.cfg.valueBits ∧ 2 ≤ (16 : Byte).toNat ∧
    (16 : Byte).toNat ≤ withText.cfg.maxBase ∧ (0x2A : Byte) ≠ 0 ∧
    got (exec (.lcdWrnum 7 0 0x00 10) withText) (fun t => leastDuration t.cfg t.lineTrace) = some 0 := by
  unfold textAt; decide

theorem witness_RdcntReturnsTheCounter :
    held.quiet = true ∧ held.ready = true ∧ held.cnt.up = 1 ∧ held.cnt.enter = 255 ∧ held.cnt.down = 7 := by decide

/-- A counter below the threshold, and two at or above it. -/
theorem witness_PressedTestsTheThreshold :
    held.quiet = true ∧ held.ready = true ∧ ¬ held.cfg.shortTh ≤ held.cnt.up.toNat ∧
    held.cfg.shortTh ≤ held.cnt.enter.toNat ∧ held.cfg.shortTh ≤ held.cnt.down.toNat ∧
    (waiting 2).cfg.shortTh = (waiting 2).cnt.enter.toNat := by decide

theorem witness_WaitEndsOnZeroOnly :
    (waiting 0).quiet = true ∧ (waiting 0).busy = true ∧ (waiting 0).mark = none ∧
    (waiting 0).todo = .wait .enter :: [] ∧ (waiting 0).cnt.get .enter = 0 ∧
    (waiting 255).quiet = true ∧ (waiting 255).cnt.get .enter ≠ 0 := by decide

/-- P6: held, with fast ticks arriving. -/
def hanging : State :=
  { waiting 255 with inp := ⟨true, false, true⟩, script := [.tick .fast, .go, .tick .slow, .levels true false false] }

theorem witness_HeldButtonHangsTheOperation :
    hanging.busy = true ∧ hanging.mark = none ∧ hanging.todo = .wait .enter :: [] ∧ hanging.cnt.get .enter ≠ 0 ∧
    hanging.inp.get .enter = false ∧ hanging.script.all (Event.keepsPressed .enter) = true := by decide

theorem witness_ReleasedSampleEndsTheWait :
    { waiting 9 with pendFast := true }.script = [] ∧ { waiting 9 with pendFast := true }.pendFast = true ∧
    (waiting 9).pendSlow = false ∧ (waiting 9).inIsr = false ∧ (waiting 9).busy = true ∧ (waiting 9).mark = none ∧
    (waiting 9).todo = .wait .enter :: [] ∧ (waiting 9).inp.get .enter = true := by decide

theorem witness_PressedReportsAfterReadingZero :
    (waiting 0).todo = .wait .enter :: [] ∧ (waiting 0).busy = true ∧
    got (step (waiting 0)) (fun t => (t.busy, t.result)) = some (false, 1) := by decide

/-- The sampler's run, a reset, and a step that leaves the counters alone. -/
theorem witness_OnlyTheSamplerWritesCounters :
    got (step bothPending) State.cnt = some ⟨4, 0, 0⟩ ∧
    got (step { held with script := [.rst] }) State.cnt = some ⟨0, 0, 0⟩ ∧
    got (step strobing) State.cnt = some ⟨0, 0, 0⟩ := by decide

/-- For `TickFastSamplesTheButtons` and `TickSlowSetsConvDue`. -/
theorem witness_tick_completes : held.inIsr = false := by decide

theorem witness_TicksDoNotNest : { held with inIsr := true }.inIsr = true := by decide

theorem witness_TicksMergeIntoOneLatch :
    held.refusal = none ∧ { held with script := [.tick .fast, .tick .fast] }.script = .tick .fast :: .tick .fast :: [] ∧
    { held with script := [.tick .slow, .tick .slow] }.script = .tick .slow :: .tick .slow :: [] := by decide

/-- For each of the two sources, at a `go` and at the end of the script; also with a fault recorded. -/
theorem witness_PendingTickIsTakenNext :
    held.refusal = none ∧ held.inIsr = false ∧ overrun.refusal = none ∧
    { held with script := [.go], pendFast := true }.script = .go :: [] ∧
    { held with script := [], pendFast := true }.script = [] ∧
    { held with pendFast := true }.pendFast = true ∧ { held with pendFast := true }.pendSlow = false ∧
    { held with pendSlow := true }.pendFast = false ∧ { held with pendSlow := true }.pendSlow = true := by decide

theorem witness_BothTicksEitherOrder :
    bothPending.refusal = none ∧ bothPending.script = [] ∧ bothPending.inIsr = false ∧
    bothPending.pendFast = true ∧ bothPending.pendSlow = true := by decide

/-- A micro-step at the end of the script and one at a `go`, a request and a reset, each of which changes the main
context's side. -/
theorem witness_HandlersLeaveTheMainContextAlone :
    got (step strobing) (fun t => decide (t.mainView = strobing.mainView)) = some false ∧
    got (step { strobing with script := [.go] }) (fun t => decide (t.mainView = strobing.mainView)) = some false ∧
    got (step (presented 0x3000000000000041)) (fun t => decide (t.mainView = State.reset.mainView)) = some false ∧
    got (step { strobing with script := [.rst] }) (fun t => decide (t.mainView = strobing.mainView)) =
      some false := by decide

/-- V72: a tick in the middle of the strobe. -/
theorem witness_DisplayOperationsAreImmuneToInterrupts :
    strobing.todo.all Micro.readsNoCounter = true ∧
    { strobing with script := [.tick .fast, .go, .go] }.script.all Event.onlyInterrupts = true ∧
    got (stepN 3 { strobing with script := [.tick .fast, .go, .go] }) State.upc = some 6 := by decide

/-- The slow handler, the host's clear, and a reset. -/
theorem witness_ConvDueWriters :
    got (step { held with pendSlow := true }) State.convDue = some true ∧
    got (step { held with convDue := true, script := [.clearDue] }) State.convDue = some false ∧
    held.convDue = false ∧ { held with script := [.rst] }.script.head? = some .rst := by decide

/-- An idle and a busy block. -/
theorem witness_HostClearsItsFlagOnlyWhileIdle :
    { held with script := [.clearDue] }.script = .clearDue :: [] ∧ held.mark = none ∧ held.busy = false ∧
    { strobing with script := [.clearDue] }.script = .clearDue :: [] ∧ strobing.mark = none ∧
    strobing.busy = true := by decide

/-- The hanging wait with a conversion due. -/
theorem witness_HeldButtonStallsTheConversion :
    let s := { hanging with convDue := true, script := [.clearDue, .tick .fast, .go] }
    s.busy = true ∧ s.mark = none ∧ s.todo = .wait .enter :: [] ∧ s.cnt.get .enter ≠ 0 ∧ s.inp.get .enter = false ∧
    s.script.all (Event.keepsPressed .enter) = true ∧ s.convDue = true := by decide

/-- Both cases of a reset. -/
theorem witness_RstMidStrobeMayLatchANibble : strobing.lines.e = true ∧ State.reset.lines.e = false := by decide

/-- The invariant holds in the middle of a strobe. -/
theorem strobing_inv : strobing.Inv := ⟨by decide, by decide, by decide, by decide, by decide⟩

theorem falling_inv : falling.Inv := ⟨by decide, by decide, by decide, by decide, by decide⟩

theorem witness_EveryStepKeepsTheInvariant : strobing.Inv ∧ got (step strobing) State.upc = some 6 :=
  ⟨strobing_inv, by decide⟩

/-- A step that leaves the lines alone, and the one that lets E fall. -/
theorem witness_BusIsStableWhileEIsHigh :
    strobing.Inv ∧ strobing.lines.e = true ∧ strobing.script.head? ≠ some .rst ∧
    got (step strobing) State.lines = some strobing.lines ∧
    falling.Inv ∧ falling.lines.e = true ∧ falling.script.head? ≠ some .rst ∧
    got (step falling) State.lines = some { falling.lines with e := false } :=
  ⟨strobing_inv, by decide, by decide, by decide, falling_inv, by decide, by decide, by decide⟩

/-- For `TextAndConfigurationNeverChange` and `TracesGrowAndTheMarkStays`, the latter with a fault recorded. -/
theorem witness_steps_complete :
    got (step falling) (fun t => t.xferTrace) = some [.entry true 0x4] ∧
    overrun.mark = some (.fault (.textOverrun 0x100)) ∧
    got (step { overrun with pendFast := true }) State.mark = some (some (.fault (.textOverrun 0x100))) := by decide

/-- With and without a pending tick, and with the host's two events. -/
theorem witness_AfterAFaultOnlyHandlersRun :
    overrun.mark = some (.fault (.textOverrun 0x100)) ∧ overrun.script = [] ∧ overrun.inIsr = false ∧
    overrun.pendSlow = false ∧ overrun.pendFast = false ∧
    { overrun with pendFast := true }.pendFast = true ∧
    { overrun with script := [.clearDue] }.script = .clearDue :: [] ∧
    { overrun with script := [.request 0x1000000000000000] }.script = .request 0x1000000000000000 :: [] := by decide

end Sys2Proof.Tests
end

section
/-! The host's clearing of `conv_due` (R23, R139; log entry 27). -/

namespace Sys2Proof.Machine

theorem State.clearDue_of_idle {s : State} (hm : s.mark = none) (hb : s.busy = false) :
    s.clearDue = .next { s with convDue := false } := by
  simp [State.clearDue, State.mainTurn_of_clear hm, hb]

theorem State.clearDue_of_busy {s : State} (hm : s.mark = none) (hb : s.busy = true) : s.clearDue = .next s := by
  simp [State.clearDue, State.mainTurn_of_clear hm, hb]

theorem step_of_clearDue_event {s : State} {rest : List Event} (hs : s.script = .clearDue :: rest)
    (hm : s.mark = none) : step s = State.clearDue { s with script := rest } :=
  step_of_event (State.refusal_of_clear hm) hs

/-- Settles O56: the step is the host's turn, which `busy` alone decides. -/
theorem hostClearsItsFlagOnlyWhileIdle : Obligations.HostClearsItsFlagOnlyWhileIdle := by
  intro s rest hs hm
  rw [step_of_clearDue_event hs hm]
  exact ⟨fun hb => State.clearDue_of_idle hm hb, fun hb => State.clearDue_of_busy hm hb⟩

end Sys2Proof.Machine
end

section
/-! The step that is presented a word, and the acceptance of a request (R16, R17, R60, R147). -/

namespace Sys2Proof.Machine

/-! ## The word that presents a command byte (R60) -/

/-- The word with which the host presents a command byte is `LCD.CMD` of that byte (R47, R60). -/
theorem decodeRequest_wordB_lcdCmd (b : Byte) : decodeRequest (wordB 0x2 b) = .ok (.lcdCmd b) := by
  have hop : reqOp (wordB 0x2 b) = 0x2 := BitVec.extractLsb'_append_eq_of_le (by decide)
  have hzero : (wordB 0x2 b).extractLsb' 8 52 = 0 := BitVec.extractLsb'_append_eq_of_le (by decide)
  have hbyte : (wordB 0x2 b).extractLsb' 0 8 = b := BitVec.extractLsb'_append_eq_right
  rw [decodeRequest, hop]
  show ifZero _ _ _ = _
  rw [ifZero, if_pos hzero, hbyte]

/-- A word is its high part followed by its low part. -/
theorem append_extractLsb'_of_high {n m : Nat} {b : BitVec (n + m)} {high : BitVec n}
    (h : b.extractLsb' m n = high) : high ++ b.extractLsb' 0 m = b := by
  rw [← h, BitVec.extractLsb'_append_extractLsb'_eq_extractLsb' (Nat.zero_add m).symm, BitVec.extractLsb'_eq_self]

/-- One test of the decoder of command bytes: if it holds the byte is `j`, else the other tests decide. -/
theorem encode_of_test {p : Prop} [Decidable p] {c : Code} {i j : Instr} {others : Except DecodeError Instr}
    (hpos : p → encode j = some c) (hneg : others = .ok i → encode i = some c)
    (h : (if p then .ok j else others) = .ok i) : encode i = some c := by
  split at h
  · next hp => cases h; exact hpos hp
  · exact hneg h

/-- What the decoder reads from a command byte is encoded as that byte (R56). -/
theorem encode_of_decodeCommand {b : Byte} {i : Instr} : decodeCommand b = .ok i → encode i = some (.command b) := by
  unfold decodeCommand
  refine encode_of_test (fun h => ?setDdram) <| encode_of_test (fun h => ?setCgram) <| encode_of_test ?_ <|
    encode_of_test ?_ <| encode_of_test ?_ <| encode_of_test ?_ <| encode_of_test ?_ <| encode_of_test ?_ <|
    encode_of_test ?_ <| encode_of_test ?_ <| encode_of_test ?_ <| encode_of_test (fun h => ?entry) <|
    encode_of_test (fun h => ?home) <| encode_of_test ?_ fun h => nomatch h
  case setDdram => exact congrArg (some ∘ Code.command) (append_extractLsb'_of_high (m := 7) h)
  case setCgram => exact congrArg (some ∘ Code.command) (append_extractLsb'_of_high (m := 6) h)
  case home => exact congrArg (some ∘ Code.command) (append_extractLsb'_of_high (m := 1) h)
  case entry =>
    have hhigh : b.extractLsb' 1 7 = 1#6 ++ b.extractLsb' 1 1 := by
      rw [← h]
      exact (BitVec.extractLsb'_append_extractLsb'_eq_extractLsb' (start₂ := 2) (start₁ := 1) (len₁ := 1) rfl).symm
    exact congrArg (some ∘ Code.command) (append_extractLsb'_of_high (m := 1) hhigh)
  all_goals rintro rfl; rfl

/-- An instruction whose code is a command byte sends that byte (R60). -/
theorem exec_of_encode_command {i : Instr} {b : Byte} (h : encode i = some (.command b)) (s : State) :
    exec i s = issueCommand b s := by
  cases i with
  | cmdClear | cmdHome | cmdEntry | cmdDispOff | cmdDispOn | cmdCursorOn | cmdCursorBlink => cases h; rfl
  | cmdShiftCurL | cmdShiftCurR | cmdShiftDspL | cmdShiftDspR | cmdFuncset | cmdSetCgram | cmdSetDdram => cases h; rfl
  | _ => cases h

/-! ## The step that is presented a word -/

/-- With nothing recorded, a presented word is the host's turn, and a refusal of it is recorded (R16, R147). -/
theorem step_of_request_event {s : State} {w : ReqWord} {rest : List Event} (hs : s.script = .request w :: rest)
    (hm : s.mark = none) :
    step s = State.recordIn { s with script := rest } (State.request w { s with script := rest }) := by
  rw [step_of_event (State.refusal_of_clear hm) hs]
  exact State.mainTurn_of_clear hm _

theorem State.request_of_decode {w : ReqWord} {i : Instr} (h : decodeRequest w = .ok i) (s : State) :
    s.request w = exec i s := by
  simp [State.request, h]

theorem step_of_decoded_request {s : State} {w : ReqWord} {i : Instr} {rest : List Event}
    (hs : s.script = .request w :: rest) (hm : s.mark = none) (hd : decodeRequest w = .ok i) :
    step s = State.recordIn { s with script := rest } (exec i { s with script := rest }) := by
  rw [step_of_request_event hs hm, State.request_of_decode hd]

/-- The word a row's bits are presented by decodes to an instruction that does what the row's own does (R60). -/
theorem decodeRequest_wordOfCode {c : Code} {i : Instr} (h : decode c = .ok i) :
    ∃ j, decodeRequest (wordOfCode c) = .ok j ∧ ∀ s, exec j s = exec i s := by
  cases c with
  | request w => exact ⟨i, h, fun _ => rfl⟩
  | command b =>
    exact ⟨.lcdCmd b, decodeRequest_wordB_lcdCmd b,
      fun s => (exec_of_encode_command (encode_of_decodeCommand h) s).symm⟩

/-- A placed row is run by the very next step (log entries 2 and 4). -/
theorem step_withFetchWord {s : State} {nbits w : Nat} {i : Instr} (hm : s.mark = none)
    (hd : decodeTableWord nbits w = some i) : step (s.withFetchWord nbits w) = s.recordIn (exec i s) := by
  have hc : decode (tableCode nbits w) = .ok i := by
    cases hr : decode (tableCode nbits w) <;> simp_all [decodeTableWord, Except.toOption]
  obtain ⟨j, hj, he⟩ := decodeRequest_wordOfCode hc
  rw [← he s]
  exact step_of_decoded_request (s := s.withFetchWord nbits w) rfl hm hj

/-- Settles O8: a presented word is the host's turn, and a row's bits are presented by a word of the same meaning. -/
theorem stepRunsTheDecodedInstruction : Obligations.StepRunsTheDecodedInstruction :=
  ⟨fun _ _ _ _ hs hm hd => step_of_decoded_request hs hm hd,
    fun _ _ _ hm hd => step_withFetchWord hm hd,
    fun _ _ _ hm hd => step_withFetchWord hm hd⟩

theorem step_of_recorded_refusal {s : State} {r : Refusal} (h : s.mark = some (.refusal r)) : step s = .refused r := by
  simp [step, State.move, State.refusal, h]

/-- Settles O9: recording keeps a next state as it is and turns a refusal into a mark, which ends every later step. -/
theorem refusalIsRecordedAndEndsTheRun : Obligations.RefusalIsRecordedAndEndsTheRun := by
  refine ⟨fun s t w i rest hs hm hd he => ?_, fun s w i rest r hs hm hd he => ?_, fun _ _ => step_of_recorded_refusal⟩
  · rw [step_of_decoded_request hs hm hd, he]
    rfl
  · rw [step_of_decoded_request hs hm hd, he]
    rfl

/-! ## The acceptance of a request -/

/-- The outcome `o` of a request in `s`, when it is a next state, is the start of an operation with `w` latched. -/
def State.StartsOnly (s : State) (w : ReqWord) (o : Host.Outcome State Fault Refusal) : Prop :=
  ∀ t, o = .next t → ∃ ops, t = s.start w ops

theorem State.startsOnly_issue (s : State) (w : ReqWord) (ops : List Micro) : s.StartsOnly w (s.issue w ops) :=
  fun _ h => ⟨ops, (State.issue_next h).2⟩

theorem State.startsOnly_issueButton (s : State) (w : ReqWord) (k : BitVec 2) (ops : Button → List Micro) :
    s.StartsOnly w (issueButton w k ops s) := by
  unfold issueButton
  split
  · exact s.startsOnly_issue w _
  · exact fun t h => absurd h (refuseReserved_not_next w s t)

theorem State.startsOnly_gotoxy (s : State) (col row : Byte) :
    s.StartsOnly (wordXY 0x4 col row) (execLcdGotoxy col row s) := by
  intro t h
  obtain ⟨-, h⟩ := State.gate_next h
  split at h <;> cases h
  exact ⟨_, rfl⟩

theorem State.startsOnly_wrnum (s : State) (value : BitVec 32) (width fill base : Byte) :
    s.StartsOnly (wordN 0x6 value width fill base) (execLcdWrnum value width fill base s) := by
  intro t h
  obtain ⟨-, h⟩ := State.gate_next h
  split_ifs at h
  cases h
  exact ⟨_, rfl⟩

/-- A request, when it is accepted, starts an operation with the word that presents it latched (R16, R48, R60). -/
theorem exec_request_startsOnly {i : Instr} (hi : isRequest i = true) (s : State) :
    ∃ w, requestWord i = some w ∧ s.StartsOnly w (exec i s) := by
  cases i with
  | lcdGotoxy col row => exact ⟨_, rfl, s.startsOnly_gotoxy col row⟩
  | lcdWrnum value width fill base => exact ⟨_, rfl, s.startsOnly_wrnum value width fill base⟩
  | btnPressed | btnRdcnt => exact ⟨_, rfl, s.startsOnly_issueButton _ _ _⟩
  | lcdInit | lcdCmd | lcdChr | lcdWrstr => exact ⟨_, rfl, s.startsOnly_issue _ _⟩
  | cmdClear | cmdHome | cmdEntry | cmdDispOff | cmdDispOn | cmdCursorOn | cmdCursorBlink =>
    exact ⟨_, rfl, s.startsOnly_issue _ _⟩
  | cmdShiftCurL | cmdShiftCurR | cmdShiftDspL | cmdShiftDspR | cmdFuncset | cmdSetCgram | cmdSetDdram =>
    exact ⟨_, rfl, s.startsOnly_issue _ _⟩
  | reserved0 | reserved7 | reservedA | reservedB | reservedC | reservedD | reservedE | reservedF => cases hi
  | tickFast | tickSlow | rst => cases hi
  | lineSet | lineClr | lineTgl | lineRd | sendNibble | sendByte => cases hi

/-- Settles O10: an accepted request is the start of an operation, whose fields depend on whether a micro-step is left. -/
theorem acceptanceFrame : Obligations.AcceptanceFrame := by
  intro i s t hi h
  obtain ⟨w, hw, hstart⟩ := exec_request_startsOnly hi s
  obtain ⟨ops, rfl⟩ := hstart t h
  cases ops with
  | nil => exact ⟨rfl, hw, fun h => absurd rfl h, fun _ => ⟨rfl, rfl⟩⟩
  | cons m ms => exact ⟨rfl, hw, fun _ => ⟨rfl, rfl⟩, fun h => absurd h (List.cons_ne_nil m ms)⟩

end Sys2Proof.Machine
end

section
/-! What a step can change: the counters, `conv_due`, the text space and the configuration, the traces and the mark
(R13, R21, R22, R23), and the state after reset (R24). -/

namespace Sys2Proof.Machine

/-! ## Every way a step changes the state -/

theorem State.pendFast_of_fastTurn {s : State} (h : s.fastTurn = true) : s.pendFast = true :=
  Bool.and_elim_left h

/-- The block has a step of its own, at the script's end or at a `go`, and `rest` is the script it leaves. -/
def State.OwnTurn (s : State) (rest : List Event) : Prop :=
  (s.script = [] ∧ rest = []) ∨ s.script = .go :: rest

/-- The changes a step of `s` can make, each with its guard, `rest` being the script it leaves. The block's own: a handler
returns or runs, a micro-step is done, nothing is. The host's: an operation is started, a refusal is recorded, the flag is
cleared. The environment's: a tick, levels, a reset. -/
inductive StepChange (s : State) (rest : List Event) : State → Prop
  | leave (ho : s.OwnTurn rest) (hi : s.inIsr = true) : StepChange s rest (State.leaveHandler { s with script := rest })
  | fastHandler (ho : s.OwnTurn rest) (hi : s.inIsr = false) (hf : s.fastTurn = true) : StepChange s rest
      ((State.sampleButtons s.inp.up s.inp.enter s.inp.down)
        (State.enterHandler .fast { s with script := rest })).leaveHandler
  | slowHandler (ho : s.OwnTurn rest) (hi : s.inIsr = false) (hf : s.fastTurn = false) (hp : s.pendSlow = true) :
      StepChange s rest (State.enterHandler .slow { s with script := rest }).setConvDue.leaveHandler
  | micro (ho : s.OwnTurn rest) (hi : s.inIsr = false) (hf : s.pendFast = false) (hp : s.pendSlow = false)
      (hm : s.mark = none) (hb : s.busy = true) : StepChange s rest (State.microStep { s with script := rest })
  | idle (ho : s.OwnTurn rest) (hi : s.inIsr = false) (hf : s.pendFast = false) (hp : s.pendSlow = false)
      (hm : s.mark = none) (hb : s.busy = false) : StepChange s rest { s with script := rest }
  | start (w : ReqWord) (ops : List Micro) {req : ReqWord} {i : Instr} (hs : s.script = .request req :: rest)
      (hr : s.ready = true) (hd : decodeRequest req = .ok i)
      (he : exec i { s with script := rest } = .next (State.start w ops { s with script := rest })) :
      StepChange s rest (State.start w ops { s with script := rest })
  | refuse (r : Refusal) {req : ReqWord} (hs : s.script = .request req :: rest) (hm : s.mark = none)
      (he : State.request req { s with script := rest } = .refused r) :
      StepChange s rest (State.recordRefusal r { s with script := rest })
  | clearDue (hs : s.script = .clearDue :: rest) (hm : s.mark = none) :
      StepChange s rest { s with convDue := s.busy && s.convDue, script := rest }
  | tick (src : TickSource) (hs : s.script = .tick src :: rest) :
      StepChange s rest (State.raiseTick src { s with script := rest })
  | levels (a b c : Level) (hs : s.script = .levels a b c :: rest) :
      StepChange s rest { s with inp := ⟨a, b, c⟩, script := rest }
  | rst (hs : s.script = .rst :: rest) : StepChange s rest (State.afterReset { s with script := rest })

theorem StepChange.of_ownMove {s t : State} {rest : List Event} (ho : s.OwnTurn rest)
    (h : State.ownMove { s with script := rest } = .next t) : StepChange s rest t := by
  obtain ⟨hi, rfl⟩ | ⟨hi, hf, rfl⟩ | ⟨hi, hf, hp, rfl⟩ | ⟨hi, hf, hp, hm, ⟨hb, rfl⟩ | ⟨hb, rfl⟩⟩ := State.ownMove_next h
  · exact .leave ho hi
  · exact .fastHandler ho hi hf
  · exact .slowHandler ho hi hf hp
  · exact .micro ho hi hf hp hm hb
  · exact .idle ho hi hf hp hm hb

/-- Every step that answers a next state makes one of the changes. -/
theorem step_change {s t : State} (h : step s = .next t) : ∃ rest, StepChange s rest t := by
  obtain ⟨-, ⟨hs, ho⟩ | ⟨rest, hs, ho⟩ | ⟨req, i, rest, hs, -, hd, he⟩ | ⟨req, r, rest, hs, hm, he, rfl⟩ |
    ⟨src, rest, hs, rfl⟩ | ⟨a, b, c, rest, hs, rfl⟩ | ⟨rest, hs, hm, rfl⟩ | ⟨rest, hs, rfl⟩⟩ := step_next h
  · have hnil : { s with script := [] } = s := by rw [← hs]
    exact ⟨[], .of_ownMove (.inl ⟨hs, rfl⟩) (by rwa [hnil])⟩
  · exact ⟨rest, .of_ownMove (.inr hs) ho⟩
  · obtain ⟨hr, w, ops, rfl⟩ := exec_decoded_next hd he
    exact ⟨rest, .start w ops hs hr hd he⟩
  · exact ⟨rest, .refuse r hs hm he⟩
  · exact ⟨rest, .tick src hs⟩
  · exact ⟨rest, .levels a b c hs⟩
  · exact ⟨rest, .clearDue hs hm⟩
  · exact ⟨rest, .rst hs⟩

/-! ## What the start of an operation leaves unchanged -/

@[simp] theorem State.start_cnt (s : State) (w : ReqWord) (ops : List Micro) : (s.start w ops).cnt = s.cnt := by
  rw [State.start_frame]
@[simp] theorem State.start_convDue (s : State) (w : ReqWord) (ops : List Micro) :
    (s.start w ops).convDue = s.convDue := by rw [State.start_frame]
@[simp] theorem State.start_cfg (s : State) (w : ReqWord) (ops : List Micro) : (s.start w ops).cfg = s.cfg := by
  rw [State.start_frame]
@[simp] theorem State.start_txt (s : State) (w : ReqWord) (ops : List Micro) : (s.start w ops).txt = s.txt := by
  rw [State.start_frame]
@[simp] theorem State.start_lineTrace (s : State) (w : ReqWord) (ops : List Micro) :
    (s.start w ops).lineTrace = s.lineTrace := by rw [State.start_frame]
@[simp] theorem State.start_xferTrace (s : State) (w : ReqWord) (ops : List Micro) :
    (s.start w ops).xferTrace = s.xferTrace := by rw [State.start_frame]
@[simp] theorem State.start_mark (s : State) (w : ReqWord) (ops : List Micro) : (s.start w ops).mark = s.mark := by
  rw [State.start_frame]

/-! ## The text space and the configuration (R22, R31) -/

/-- Settles O53: no change a step can make writes either. -/
theorem textAndConfigurationNeverChange : Obligations.TextAndConfigurationNeverChange := by
  intro s t h
  obtain ⟨rest, hc⟩ := step_change h
  cases hc <;> simp

/-! ## The counters (R13, R127) -/

theorem sampleCnt_eq (level : Level) (c : Byte) :
    sampleCnt level c = if level = true then 0 else if c = 255 then 255 else c + 1 := by
  cases level <;> rfl

/-- The sampler treats each button by its own level (R127). -/
theorem State.sampleButtons_cnt_get (s : State) (f : PerButton Level) (b : Button) :
    (State.sampleButtons f.up f.enter f.down s).cnt.get b = sampleCnt (f.get b) (s.cnt.get b) := by
  cases b <;> rfl

/-- Settles O37: of the changes a step can make, only the fast handler and a reset write the counters. -/
theorem onlyTheSamplerWritesCounters : Obligations.OnlyTheSamplerWritesCounters := by
  intro s t h
  obtain ⟨rest, hc⟩ := step_change h
  cases hc with
  | fastHandler _ hi hf =>
    refine .inr (.inl ⟨State.pendFast_of_fastTurn hf, hi, fun b => ?_⟩)
    rw [State.leaveHandler_cnt, State.sampleButtons_cnt_get, State.enterHandler_cnt, sampleCnt_eq]
  | rst hs => exact .inr (.inr ⟨by rw [hs]; rfl, fun b => by cases b <;> rfl⟩)
  | _ => exact .inl (by simp)

/-! ## The flag `conv_due` (R23, R131, R139) -/

/-- Settles O46: of the changes a step can make, only the slow handler, the host's clearing and a reset write the flag. -/
theorem convDueWriters : Obligations.ConvDueWriters := by
  intro s t h hne
  obtain ⟨rest, hc⟩ := step_change h
  cases hc with
  | slowHandler _ hi _ hp => exact .inl ⟨hp, hi, rfl⟩
  | clearDue hs hm =>
    have hb : s.busy = false := by
      cases hb : s.busy with
      | false => rfl
      | true => exact absurd (by simp [hb]) hne
    exact .inr (.inl ⟨by rw [hs]; rfl, hm, hb, by simp [hb]⟩)
  | rst hs => exact .inr (.inr (by rw [hs]; rfl))
  | _ => exact absurd (by simp) hne

/-! ## The traces and the mark (R5, R21, R149) -/

/-- A micro-step only adds to the traces (R5). -/
theorem State.microStep_traces (s : State) :
    s.lineTrace <+: s.microStep.lineTrace ∧ s.xferTrace <+: s.microStep.xferTrace := by
  unfold State.microStep
  split
  · simp
  · next m rest _ =>
    cases m with
    | bus p => simpa [State.micro] using p.apply_traces s
    | text a =>
      simp only [State.micro, State.textMicro]
      split
      · simp
      · split <;> simp
    | test k => simp only [State.micro]; split <;> simp
    | wait k => simp only [State.micro]; split <;> simp
    | load k => simp [State.micro]

/-- Settles O54: only a micro-step and a reset write a trace, at its end, and the mark is written only while it is clear. -/
theorem tracesGrowAndTheMarkStays : Obligations.TracesGrowAndTheMarkStays := by
  refine ⟨⟨rfl, rfl, rfl⟩, fun s t h => ?_⟩
  obtain ⟨rest, hc⟩ := step_change h
  cases hc with
  | micro _ _ _ _ hm _ =>
    obtain ⟨hl, hx⟩ := State.microStep_traces { s with script := rest }
    exact ⟨hl, hx, by simp [hm]⟩
  | refuse r _ hm _ => exact ⟨List.prefix_refl _, List.prefix_refl _, by simp [hm]⟩
  | _ => simp

/-! ## The state after reset (R24) -/

/-- Settles O49: the fields of the state after reset, as they are written. -/
theorem resetStateValues : Obligations.ResetStateValues :=
  ⟨rfl, rfl, rfl, rfl, rfl, rfl, rfl, rfl, rfl, rfl, rfl⟩

/-- Settles O50: at reset E is low and nothing is left to do, no handler runs, and the text content is canonical. -/
theorem invariantAtReset : Obligations.InvariantAtReset where
  strobe := rfl
  idle := fun _ => rfl
  noIsr := rfl
  text := State.reset_text_wf
  dirs := ⟨rfl, rfl⟩

end Sys2Proof.Machine
end

section
/-! The main context's side of the state, and what changes it (R3, R40, R134). -/

namespace Sys2Proof.Machine

/-! ## What a micro-step does to the main context's side depends on that side alone, and on the counters it reads -/

theorem Prim.apply_mainView_congr {s u : State} (h : u.mainView = s.mainView) (p : Prim) :
    (p.apply u).mainView = (p.apply s).mainView := by
  cases s; cases u; cases h
  cases p with
  | line v l => rfl
  | data n j => fin_cases j <;> rfl
  | delay d => rfl

theorem State.countStep_mainView_congr {s u : State} (h : u.mainView = s.mainView) :
    u.countStep.mainView = s.countStep.mainView := by
  cases s; cases u; cases h
  rfl

theorem State.endOp_mainView_congr {s u : State} (h : u.mainView = s.mainView) (r : Byte) :
    (u.endOp r).mainView = (s.endOp r).mainView := by
  cases s; cases u; cases h
  rfl

theorem State.goOn_mainView_congr {s u : State} (h : u.mainView = s.mainView) (rest : List Micro) :
    (u.goOn rest).mainView = (s.goOn rest).mainView := by
  cases s; cases u; cases h
  cases rest <;> rfl

theorem State.withTodo_mainView_congr {s u : State} (h : u.mainView = s.mainView) (ops : List Micro) :
    State.mainView { u with todo := ops } = State.mainView { s with todo := ops } := by
  cases s; cases u; cases h
  rfl

theorem State.readText_congr {s u : State} (h : u.mainView = s.mainView) (a : Nat) : u.readText a = s.readText a := by
  cases s; cases u; cases h
  rfl

theorem State.textMicro_mainView_congr {s u : State} (h : u.mainView = s.mainView) (a : Nat) (rest : List Micro) :
    (u.textMicro a rest).mainView = (s.textMicro a rest).mainView := by
  have hcfg : u.cfg = s.cfg := congrArg MainView.cfg h
  have hcount := State.countStep_mainView_congr h
  rw [State.textMicro, State.textMicro, State.readText_congr h, hcfg]
  split
  · cases s; cases u; cases h
    rfl
  · split
    · exact State.goOn_mainView_congr hcount rest
    · exact State.withTodo_mainView_congr hcount _

theorem State.short_congr {s u : State} (h : u.mainView = s.mainView) {k : Button} (hc : u.readCnt k = s.readCnt k) :
    u.short k = s.short k := by
  have hcfg : u.cfg = s.cfg := congrArg MainView.cfg h
  rw [State.short, State.short, hc, hcfg]

/-- A micro-step takes states of one main view to states of one main view; those that read a counter need the counters
to agree too. -/
theorem State.micro_mainView_congr {s u : State} (h : u.mainView = s.mainView) {m : Micro}
    (hc : m.readsNoCounter = false → u.cnt = s.cnt) (rest : List Micro) :
    (u.micro m rest).mainView = (s.micro m rest).mainView := by
  have hcount := State.countStep_mainView_congr h
  cases m with
  | bus p => exact State.goOn_mainView_congr (State.countStep_mainView_congr (Prim.apply_mainView_congr h p)) rest
  | text a => exact State.textMicro_mainView_congr h a rest
  | test k =>
    have hread : u.readCnt k = s.readCnt k := congrArg (·.get k) (hc rfl)
    rw [State.micro, State.micro, State.short_congr h hread]
    split
    · exact State.withTodo_mainView_congr hcount _
    · exact State.endOp_mainView_congr hcount 0
  | wait k =>
    have hread : u.readCnt k = s.readCnt k := congrArg (·.get k) (hc rfl)
    rw [State.micro, State.micro, hread]
    split
    · exact State.endOp_mainView_congr hcount 1
    · exact hcount
  | load k =>
    have hread : u.readCnt k = s.readCnt k := congrArg (·.get k) (hc rfl)
    rw [State.micro, State.micro, hread]
    exact State.endOp_mainView_congr hcount _

theorem State.microStep_mainView_congr {s u : State} (h : u.mainView = s.mainView)
    (hc : s.todo.all Micro.readsNoCounter = true ∨ u.cnt = s.cnt) : u.microStep.mainView = s.microStep.mainView := by
  have htodo : u.todo = s.todo := congrArg MainView.todo h
  rw [State.microStep, State.microStep, htodo]
  split
  · exact State.endOp_mainView_congr h 0
  · next m rest hs =>
    refine State.micro_mainView_congr h (fun hm => hc.resolve_left ?_) rest
    simp [hs, hm]

/-! ## The changes of a step that leave the main context's side alone -/

theorem State.raiseTick_mainView (s : State) (src : TickSource) : (s.raiseTick src).mainView = s.mainView := by
  cases src <;> rfl

/-- Settles O44: of the changes a step can make, only a micro-step, the host's request (accepted or refused) and a reset
touch the main context's side. -/
theorem handlersLeaveTheMainContextAlone : Obligations.HandlersLeaveTheMainContextAlone := by
  intro s t h hne
  obtain ⟨rest, hc⟩ := step_change h
  cases hc with
  | micro ho hi hf hp hm hb =>
    refine .inr (.inr ⟨?_, State.microStep_mainView_congr rfl (.inr rfl), hi, hf, hp, hb, hm⟩)
    exact ho.imp And.left fun hs => by rw [hs]; rfl
  | start _ _ hs | refuse _ hs => exact .inl ⟨_, by rw [hs]; rfl⟩
  | rst hs => exact .inr (.inl (by rw [hs]; rfl))
  | tick src => exact absurd (State.raiseTick_mainView _ src) hne
  | leave | fastHandler | slowHandler | idle | clearDue | levels => exact absurd rfl hne

end Sys2Proof.Machine
end

section
/-! The two encodings, there and back (R46 to R50, R56). -/

namespace Sys2Proof.Machine

/-! ## The fields of an encoded word (R47) -/

/-- A field of the high part is found above the low part. -/
theorem extractLsb'_append_of_high {n m start len : Nat} {high : BitVec n} {low : BitVec m} {x : BitVec len}
    (hm : m ≤ start) (h : high.extractLsb' (start - m) len = x) : (high ++ low).extractLsb' start len = x :=
  (BitVec.extractLsb'_append_eq_of_le hm).trans h

@[simp] theorem reqOp_wordZ (op : BitVec 4) : reqOp (wordZ op) = op := BitVec.extractLsb'_append_eq_left
@[simp] theorem wordZ_zeros (op : BitVec 4) : (wordZ op).extractLsb' 0 60 = 0 := BitVec.extractLsb'_append_eq_right

@[simp] theorem reqOp_wordR (op : BitVec 4) (rest : BitVec 60) : reqOp (wordR op rest) = op :=
  BitVec.extractLsb'_append_eq_left
@[simp] theorem wordR_rest (op : BitVec 4) (rest : BitVec 60) : (wordR op rest).extractLsb' 0 60 = rest :=
  BitVec.extractLsb'_append_eq_right

@[simp] theorem reqOp_wordB (op : BitVec 4) (byte : Byte) : reqOp (wordB op byte) = op :=
  extractLsb'_append_of_high (by decide) BitVec.extractLsb'_append_eq_left
@[simp] theorem wordB_zeros (op : BitVec 4) (byte : Byte) : (wordB op byte).extractLsb' 8 52 = 0 :=
  extractLsb'_append_of_high (by decide) BitVec.extractLsb'_append_eq_right
@[simp] theorem wordB_byte (op : BitVec 4) (byte : Byte) : (wordB op byte).extractLsb' 0 8 = byte :=
  BitVec.extractLsb'_append_eq_right

@[simp] theorem reqOp_wordA (op : BitVec 4) (addr : BitVec 16) : reqOp (wordA op addr) = op :=
  extractLsb'_append_of_high (by decide) BitVec.extractLsb'_append_eq_left
@[simp] theorem wordA_zeros (op : BitVec 4) (addr : BitVec 16) : (wordA op addr).extractLsb' 16 44 = 0 :=
  extractLsb'_append_of_high (by decide) BitVec.extractLsb'_append_eq_right
@[simp] theorem wordA_addr (op : BitVec 4) (addr : BitVec 16) : (wordA op addr).extractLsb' 0 16 = addr :=
  BitVec.extractLsb'_append_eq_right

@[simp] theorem reqOp_wordK (op : BitVec 4) (k : BitVec 2) : reqOp (wordK op k) = op :=
  extractLsb'_append_of_high (by decide) BitVec.extractLsb'_append_eq_left
@[simp] theorem wordK_zeros (op : BitVec 4) (k : BitVec 2) : (wordK op k).extractLsb' 2 58 = 0 :=
  extractLsb'_append_of_high (by decide) BitVec.extractLsb'_append_eq_right
@[simp] theorem wordK_index (op : BitVec 4) (k : BitVec 2) : (wordK op k).extractLsb' 0 2 = k :=
  BitVec.extractLsb'_append_eq_right

@[simp] theorem reqOp_wordXY (op : BitVec 4) (col row : Byte) : reqOp (wordXY op col row) = op :=
  extractLsb'_append_of_high (by decide) <| extractLsb'_append_of_high (by decide) BitVec.extractLsb'_append_eq_left
@[simp] theorem wordXY_zeros (op : BitVec 4) (col row : Byte) : (wordXY op col row).extractLsb' 16 44 = 0 :=
  extractLsb'_append_of_high (by decide) <| extractLsb'_append_of_high (by decide) BitVec.extractLsb'_append_eq_right
@[simp] theorem wordXY_row (op : BitVec 4) (col row : Byte) : (wordXY op col row).extractLsb' 8 8 = row :=
  extractLsb'_append_of_high (by decide) BitVec.extractLsb'_append_eq_right
@[simp] theorem wordXY_col (op : BitVec 4) (col row : Byte) : (wordXY op col row).extractLsb' 0 8 = col :=
  BitVec.extractLsb'_append_eq_right

section
variable (op : BitVec 4) (value : BitVec 32) (width fill base : Byte)

@[simp] theorem reqOp_wordN : reqOp (wordN op value width fill base) = op :=
  extractLsb'_append_of_high (by decide) <| extractLsb'_append_of_high (by decide) <|
    extractLsb'_append_of_high (by decide) <| extractLsb'_append_of_high (by decide) BitVec.extractLsb'_append_eq_left
@[simp] theorem wordN_zeros : (wordN op value width fill base).extractLsb' 56 4 = 0 :=
  extractLsb'_append_of_high (by decide) <| extractLsb'_append_of_high (by decide) <|
    extractLsb'_append_of_high (by decide) <| extractLsb'_append_of_high (by decide) BitVec.extractLsb'_append_eq_right
@[simp] theorem wordN_base : (wordN op value width fill base).extractLsb' 48 8 = base :=
  extractLsb'_append_of_high (by decide) <| extractLsb'_append_of_high (by decide) <|
    extractLsb'_append_of_high (by decide) BitVec.extractLsb'_append_eq_right
@[simp] theorem wordN_fill : (wordN op value width fill base).extractLsb' 40 8 = fill :=
  extractLsb'_append_of_high (by decide) <| extractLsb'_append_of_high (by decide) BitVec.extractLsb'_append_eq_right
@[simp] theorem wordN_width : (wordN op value width fill base).extractLsb' 32 8 = width :=
  extractLsb'_append_of_high (by decide) BitVec.extractLsb'_append_eq_right
@[simp] theorem wordN_value : (wordN op value width fill base).extractLsb' 0 32 = value :=
  BitVec.extractLsb'_append_eq_right

end

/-! ## Decoding a code gives its instruction back -/

theorem decodeCommand_setDdram (a : BitVec 7) : decodeCommand (1#1 ++ a) = .ok (.cmdSetDdram a) := by
  rw [decodeCommand, if_pos BitVec.extractLsb'_append_eq_left, BitVec.extractLsb'_append_eq_right]

theorem decodeCommand_setCgram (a : BitVec 6) : decodeCommand (1#2 ++ a) = .ok (.cmdSetCgram a) := by
  have htop : (1#2 ++ a).extractLsb' 7 1 = 0#1 := extractLsb'_append_of_high (by decide) (by decide)
  rw [decodeCommand, htop, if_neg (by decide), if_pos BitVec.extractLsb'_append_eq_left,
    BitVec.extractLsb'_append_eq_right]

theorem decodeCommand_entry (i d : BitVec 1) : decodeCommand (1#6 ++ i ++ d) = .ok (.cmdEntry i d) := by
  revert i d
  decide

theorem decodeCommand_home (x : BitVec 1) : decodeCommand (1#7 ++ x) = .ok (.cmdHome x) := by
  revert x
  decide

/-- Settles O1: in an encoded word the decoder finds the opcode, zeros where the format has none but zeros, and the
operands; a command byte fails the tests of the patterns before its own. -/
theorem decodeOfEncodeIsIdentity : Obligations.DecodeOfEncodeIsIdentity := by
  intro i c hwf h
  cases i with
  | lcdInit | lcdCmd | lcdChr | lcdGotoxy | lcdWrstr | lcdWrnum =>
    cases h
    simp [decode, decodeRequest, ifZero]
  | btnPressed k | btnRdcnt k =>
    cases h
    have hk : k ≠ 3#2 := bne_iff_ne.1 hwf
    simp [decode, decodeRequest, decodeK, hk]
  | reserved0 | reserved7 | reservedA | reservedB | reservedC | reservedD | reservedE | reservedF =>
    cases h
    simp [decode, decodeRequest]
  | cmdSetDdram a => cases h; exact decodeCommand_setDdram a
  | cmdSetCgram a => cases h; exact decodeCommand_setCgram a
  | cmdEntry i d => cases h; exact decodeCommand_entry i d
  | cmdHome x => cases h; exact decodeCommand_home x
  | cmdClear | cmdDispOff | cmdDispOn | cmdCursorOn | cmdCursorBlink => cases h; rfl
  | cmdShiftCurL | cmdShiftCurR | cmdShiftDspL | cmdShiftDspR | cmdFuncset => cases h; rfl
  | tickFast | tickSlow | rst | lineSet | lineClr | lineTgl | lineRd | sendNibble | sendByte => cases h

/-- Settles O3: each word and byte is decoded as it stands. -/
theorem testVectorWordsDecode : Obligations.TestVectorWordsDecode := by
  unfold Obligations.TestVectorWordsDecode
  decide

/-! ## A word is put together from its fields -/

/-- Two fields that follow each other are one. -/
theorem extractLsb'_join {n start len₁ len₂ : Nat} {w : BitVec n} {high : BitVec len₂} {low : BitVec len₁}
    (hh : w.extractLsb' (start + len₁) len₂ = high) (hl : w.extractLsb' start len₁ = low) :
    w.extractLsb' start (len₂ + len₁) = high ++ low := by
  rw [← hh, ← hl, BitVec.extractLsb'_append_extractLsb'_eq_extractLsb' rfl]

section
variable {w : ReqWord} {op : BitVec 4}

theorem wordR_of_fields (hop : reqOp w = op) : wordR op (w.extractLsb' 0 60) = w :=
  append_extractLsb'_of_high (m := 60) hop

theorem wordZ_of_fields (hop : reqOp w = op) (hz : w.extractLsb' 0 60 = 0) : wordZ op = w :=
  (congrArg (wordR op) hz.symm).trans (wordR_of_fields hop)

theorem wordB_of_fields (hop : reqOp w = op) (hz : w.extractLsb' 8 52 = 0) : wordB op (w.extractLsb' 0 8) = w :=
  append_extractLsb'_of_high (m := 8) (extractLsb'_join hop hz)

theorem wordA_of_fields (hop : reqOp w = op) (hz : w.extractLsb' 16 44 = 0) : wordA op (w.extractLsb' 0 16) = w :=
  append_extractLsb'_of_high (m := 16) (extractLsb'_join hop hz)

theorem wordK_of_fields (hop : reqOp w = op) (hz : w.extractLsb' 2 58 = 0) : wordK op (w.extractLsb' 0 2) = w :=
  append_extractLsb'_of_high (m := 2) (extractLsb'_join hop hz)

theorem wordXY_of_fields (hop : reqOp w = op) (hz : w.extractLsb' 16 44 = 0) :
    wordXY op (w.extractLsb' 0 8) (w.extractLsb' 8 8) = w :=
  append_extractLsb'_of_high (m := 8) (extractLsb'_join (extractLsb'_join hop hz) rfl)

theorem wordN_of_fields (hop : reqOp w = op) (hz : w.extractLsb' 56 4 = 0) :
    wordN op (w.extractLsb' 0 32) (w.extractLsb' 32 8) (w.extractLsb' 40 8) (w.extractLsb' 48 8) = w :=
  append_extractLsb'_of_high (m := 32)
    (extractLsb'_join (extractLsb'_join (extractLsb'_join (extractLsb'_join hop hz) rfl) rfl) rfl)

end

/-- What the decoder reads from a request word is encoded as that word, and is well-formed (R46 to R50). -/
theorem encode_of_decodeRequest {w : ReqWord} {i : Instr} (h : decodeRequest w = .ok i) :
    encode i = some (.request w) ∧ i.wellFormed = true := by
  unfold decodeRequest at h
  split at h
  case h_1 hop | h_8 hop | h_11 hop | h_12 hop | h_13 hop | h_14 hop | h_15 hop =>
    cases h
    exact ⟨congrArg (some ∘ Code.request) (wordR_of_fields (BitVec.eq_of_toNat_eq hop)), rfl⟩
  case h_2 hop =>
    obtain ⟨hz, rfl⟩ := ifZero_ok h
    exact ⟨congrArg (some ∘ Code.request) (wordZ_of_fields (BitVec.eq_of_toNat_eq hop) hz), rfl⟩
  case h_3 hop | h_4 hop =>
    obtain ⟨hz, rfl⟩ := ifZero_ok h
    exact ⟨congrArg (some ∘ Code.request) (wordB_of_fields (BitVec.eq_of_toNat_eq hop) hz), rfl⟩
  case h_5 hop =>
    obtain ⟨hz, rfl⟩ := ifZero_ok h
    exact ⟨congrArg (some ∘ Code.request) (wordXY_of_fields (BitVec.eq_of_toNat_eq hop) hz), rfl⟩
  case h_6 hop =>
    obtain ⟨hz, rfl⟩ := ifZero_ok h
    exact ⟨congrArg (some ∘ Code.request) (wordA_of_fields (BitVec.eq_of_toNat_eq hop) hz), rfl⟩
  case h_7 hop =>
    obtain ⟨hz, rfl⟩ := ifZero_ok h
    exact ⟨congrArg (some ∘ Code.request) (wordN_of_fields (BitVec.eq_of_toNat_eq hop) hz), rfl⟩
  case h_9 hop | h_10 hop =>
    obtain ⟨hz, hk, rfl⟩ := decodeK_ok h
    exact ⟨congrArg (some ∘ Code.request) (wordK_of_fields (BitVec.eq_of_toNat_eq hop) hz), bne_iff_ne.2 hk⟩
  case h_16 =>
    cases h
    have hop : (reqOp w).toNat = 15 := by simp only [imp_false] at *; omega
    exact ⟨congrArg (some ∘ Code.request) (wordR_of_fields (BitVec.eq_of_toNat_eq hop)), rfl⟩

/-- The button index, the one operand that can be ill-formed, stands in no command byte (R49, R56). -/
theorem wellFormed_of_encode_command {i : Instr} {b : Byte} (h : encode i = some (.command b)) :
    i.wellFormed = true := by
  cases i with
  | btnPressed | btnRdcnt => cases h
  | _ => rfl

/-- Settles O2: each kind of code by its own decoder. -/
theorem encodeOfDecodeIsIdentity : Obligations.EncodeOfDecodeIsIdentity := by
  intro c i h
  cases c with
  | request w => exact encode_of_decodeRequest h
  | command b =>
    have he := encode_of_decodeCommand h
    exact ⟨he, wellFormed_of_encode_command he⟩

end Sys2Proof.Machine
end

section
/-! Reserved words (R50): which they are, and what the block does with one that is presented (R147). -/

namespace Sys2Proof.Machine

/-! ## The arithmetic of a reserved word, in terms of the decoder's fields -/

theorem bitsOf_eq (w : ReqWord) (lo hi : Nat) : bitsOf w lo hi = (w.extractLsb' lo (hi - lo)).toNat := by
  rw [bitsOf, BitVec.extractLsb'_toNat, Nat.shiftRight_eq_div_pow]

theorem opOf_eq (w : ReqWord) : opOf w = (reqOp w).toNat := by
  have hlt : w.toNat / 2 ^ 60 < 2 ^ 4 := by omega
  rw [opOf, reqOp, BitVec.extractLsb'_toNat, Nat.shiftRight_eq_div_pow, Nat.mod_eq_of_lt hlt]

/-! ## A word that is not decoded is reserved -/

theorem ifZero_error {n : Nat} {z : BitVec n} {w : ReqWord} {i : Instr} {e : DecodeError}
    (h : ifZero z w i = .error e) : z.toNat ≠ 0 := by
  unfold ifZero at h
  split at h
  · cases h
  · next hz => exact fun h0 => hz (BitVec.eq_of_toNat_eq h0)

theorem decodeK_error {w : ReqWord} {f : BitVec 2 → Instr} {e : DecodeError} (h : decodeK w f = .error e) :
    (w.extractLsb' 2 58).toNat ≠ 0 ∨ (w.extractLsb' 0 2).toNat = 3 := by
  unfold decodeK at h
  split at h
  · split at h
    · next hk => exact .inr (congrArg BitVec.toNat hk)
    · cases h
  · next hz => exact .inl fun h0 => hz (BitVec.eq_of_toNat_eq h0)

theorem reservedWord_of_decodeRequest_error (c : Config) {w : ReqWord} {e : DecodeError}
    (h : decodeRequest w = .error e) : reservedWord c w := by
  unfold decodeRequest at h
  split at h
  case h_2 hop | h_3 hop | h_4 hop | h_5 hop | h_6 hop | h_7 hop =>
    have hz := ifZero_error h
    simp [reservedWord, opOf_eq, bitsOf_eq, hop, hz, -BitVec.extractLsb'_toNat]
  case h_9 hop | h_10 hop =>
    have hk := decodeK_error h
    simp [reservedWord, opOf_eq, bitsOf_eq, hop, hk, -BitVec.extractLsb'_toNat]
  all_goals cases h

/-! ## Which decoded words are reserved -/

/-- The instructions whose word is reserved: the reserved opcodes, and `LCD.WRNUM` of a value wider than `VALUE_BITS`
(R50, log entry 28). -/
def hasReservedWord (c : Config) : Instr → Bool
  | .lcdWrnum value _ _ _ => !valueOk c value
  | i => isReserved i

theorem reservedWord_iff_of_encode {c : Config} {i : Instr} {w : ReqWord} (hwf : i.wellFormed = true)
    (h : encode i = some (.request w)) : reservedWord c w ↔ hasReservedWord c i = true := by
  cases i with
  | lcdInit | lcdCmd | lcdChr | lcdGotoxy | lcdWrstr =>
    cases h
    simp [reservedWord, opOf_eq, bitsOf_eq, hasReservedWord, isReserved]
  | lcdWrnum value =>
    cases h
    simp [reservedWord, opOf_eq, bitsOf_eq, hasReservedWord, valueOk]
  | btnPressed k | btnRdcnt k =>
    cases h
    have hk : k.toNat ≠ 3 := fun h3 => bne_iff_ne.1 hwf (BitVec.eq_of_toNat_eq h3)
    simp [reservedWord, opOf_eq, bitsOf_eq, hasReservedWord, isReserved, hk]
  | reserved0 | reserved7 | reservedA | reservedB | reservedC | reservedD | reservedE | reservedF =>
    cases h
    simp [reservedWord, opOf_eq, hasReservedWord, isReserved]
  | _ => cases h

theorem hasReservedWord_of_isReserved (c : Config) {i : Instr} (h : isReserved i = true) :
    hasReservedWord c i = true := by
  cases i with
  | lcdWrnum => cases h
  | _ => exact h

/-- Settles O5: a word that is not decoded is reserved, and so is one that is decoded as a reserved opcode. -/
theorem unreservedWordNamesAnOperation : Obligations.UnreservedWordNamesAnOperation := by
  intro c w hw
  cases hd : decodeRequest w with
  | error e => exact absurd (reservedWord_of_decodeRequest_error c hd) hw
  | ok i =>
    obtain ⟨he, hwf⟩ := encode_of_decodeRequest hd
    have hi : isReserved i ≠ true := fun hi =>
      hw ((reservedWord_iff_of_encode hwf he).2 (hasReservedWord_of_isReserved c hi))
    exact ⟨i, rfl, hwf, (decodeRequest_kind hd).resolve_right hi⟩

/-! ## A reserved word is refused -/

theorem State.refuseReserved_of_idle {s : State} (hb : s.busy = false) (w : ReqWord) :
    s.refuseReserved w = .refused (.reservedRequest w) := by
  simp [State.refuseReserved, hb]

/-- Settles O7: the meaning of these instructions is the refusal of their word. -/
theorem reservedInstructionsStop : Obligations.ReservedInstructionsStop := by
  intro s hb r
  have hstop := State.refuseReserved_of_idle hb
  exact ⟨hstop _, hstop _, hstop _, hstop _, hstop _, hstop _, hstop _, hstop _, hstop _, hstop _⟩

theorem exec_of_hasReservedWord {i : Instr} {s : State} {w : ReqWord} (hr : s.ready = true)
    (hi : hasReservedWord s.cfg i = true) (he : encode i = some (.request w)) :
    exec i s = .refused (.reservedRequest w) := by
  cases i with
  | lcdWrnum value width fill base =>
    cases he
    have hv : valueOk s.cfg value = false := by simpa [hasReservedWord] using hi
    show execLcdWrnum value width fill base s = _
    simp [execLcdWrnum, State.gate_of_ready hr, hv]
  | reserved0 | reserved7 | reservedA | reservedB | reservedC | reservedD | reservedE | reservedF =>
    cases he
    exact State.refuseReserved_of_idle ((State.ready_iff s).1 hr).1 _
  | _ => cases hi

/-- What a reserved word asks of a block that may take a request is refused: undecoded, or as its instruction. -/
theorem State.request_of_reservedWord {s : State} {w : ReqWord} (hr : s.ready = true) (hw : reservedWord s.cfg w) :
    s.request w = .refused (.reservedRequest w) := by
  cases hd : decodeRequest w with
  | error e => simpa [State.request, hd] using State.refuseReserved_of_idle ((State.ready_iff s).1 hr).1 w
  | ok i =>
    obtain ⟨he, hwf⟩ := encode_of_decodeRequest hd
    rw [State.request_of_decode hd]
    exact exec_of_hasReservedWord hr ((reservedWord_iff_of_encode hwf he).1 hw) he

/-- Settles O4: the step records the refusal of the word, and a recorded refusal ends the run. -/
theorem reservedWordIsRefused : Obligations.ReservedWordIsRefused := by
  intro s w rest hs hb hm hw
  have hreq : State.request w { s with script := rest } = .refused (.reservedRequest w) :=
    State.request_of_reservedWord ((State.ready_iff _).2 ⟨hb, hm⟩) hw
  refine ⟨?_, step_of_recorded_refusal rfl⟩
  rw [step_of_request_event hs hm, hreq]
  rfl

end Sys2Proof.Machine
end

section
/-! What a bus program does to the lines and the traces, and its run as an operation (R76 to R79, R82, R95). -/

namespace Sys2Proof.Machine

/-! ## One nibble (R76, R77) -/

/-- The data lines hold what was put on them. -/
theorem LineFile.dataNibble_setData (f : LineFile Level) (n : Nibble) : (f.setData n).dataNibble = n := by
  show BitVec.ofBool (nibbleBit n 0) ++ BitVec.ofBool (nibbleBit n 1) ++ BitVec.ofBool (nibbleBit n 2) ++
    BitVec.ofBool (nibbleBit n 3) = n
  revert n
  decide

/-- The four data writes of a nibble, whatever their order (R76). -/
theorem State.applyAll_data (s : State) (n : Nibble) :
    s.applyAll [.data n 0, .data n 1, .data n 2, .data n 3] =
      { s with
        lines := s.lines.setData n
        lineTrace := s.lineTrace ++ (List.finRange 4).map fun j =>
          .write (dataLine (Config.freeDbOrder s.nibbles j)) (nibbleBit n (Config.freeDbOrder s.nibbles j))
        nibbles := s.nibbles + 1 } := by
  simp only [State.applyAll, Prim.apply, State.writeData, State.driveData, List.append_assoc]
  rfl

/-- A rise is no transfer (R5). -/
theorem fallEntries_rise (f : LineFile Level) (l : Line) : fallEntries f l true = [] := by
  simp [fallEntries]

/-- The pulse on E, after which E is low; its fall is the transfer (R77). -/
theorem State.applyAll_pulse (s : State) :
    s.applyAll [.line true .e, .delay .tEH, .line false .e, .delay .tEL] =
      { s with
        lines := { s.lines with e := false }
        lineTrace := s.lineTrace ++ [.write .e true, .delay .tEH, .write .e false, .delay .tEL]
        xferTrace := s.xferTrace ++ nibbleXfer s.lines.rs s.lines.dataNibble } := by
  simp only [State.applyAll, Prim.apply, State.driveLine, State.waitDelay, fallEntries_rise, List.append_assoc]
  rfl

/-- RS at `rs`, E low, and `n` on the data lines: how a nibble leaves the lines (R77). -/
def nibbleLines (rs : Level) (n : Nibble) : LineFile Level :=
  ⟨rs, false, nibbleBit n 0, nibbleBit n 1, nibbleBit n 2, nibbleBit n 3⟩

theorem linesAfter_eq (rs : Level) (b : Byte) : linesAfter rs b = nibbleLines rs (lowNibble b) := by
  simp [linesAfter, nibbleLines, nibbleBit, lowNibble]

theorem State.applyAll_nibbleCode (s : State) (n : Nibble) :
    s.applyAll (nibbleCode n) =
      { s with
        lines := nibbleLines s.lines.rs n
        lineTrace := s.lineTrace ++ nibbleTrace (Config.freeDbOrder s.nibbles) n
        xferTrace := s.xferTrace ++ nibbleXfer s.lines.rs n
        nibbles := s.nibbles + 1 } := by
  have h := State.applyAll_append [.data n 0, .data n 1, .data n 2, .data n 3]
    [.line true .e, .delay .tEH, .line false .e, .delay .tEL] s
  rw [State.applyAll_data, State.applyAll_pulse, LineFile.dataNibble_setData, List.append_assoc] at h
  exact h

/-! ## The effect of a bus program -/

/-- From `s` the program `ps` leaves the lines at `f`, adds `xs` to the transfer trace, and adds a piece that fits `segs`
to the line trace. -/
structure State.Emits (s : State) (ps : List Prim) (f : LineFile Level) (xs : List XferEvent) (segs : List Seg) :
    Prop where
  lines : (s.applyAll ps).lines = f
  xferTrace : (s.applyAll ps).xferTrace = s.xferTrace ++ xs
  lineTrace : ∃ l, fits segs l ∧ (s.applyAll ps).lineTrace = s.lineTrace ++ l

theorem fits_append {as bs : List Seg} {l m : List TraceEvent} (ha : fits as l) (hb : fits bs m) :
    fits (as ++ bs) (l ++ m) := by
  induction as generalizing l with
  | nil =>
    cases ha
    exact hb
  | cons a as ih =>
    cases a with
    | write x v | delay d =>
      obtain ⟨k, rfl, hk⟩ := ha
      exact ⟨k ++ m, rfl, ih hk⟩
    | nibble n =>
      obtain ⟨o, k, rfl, hk⟩ := ha
      exact ⟨o, k ++ m, List.append_assoc _ _ _, ih hk⟩

theorem State.Emits.append {s : State} {ps qs : List Prim} {f g : LineFile Level} {xs ys : List XferEvent}
    {as bs : List Seg} (hp : s.Emits ps f xs as) (hq : (s.applyAll ps).Emits qs g ys bs) :
    s.Emits (ps ++ qs) g (xs ++ ys) (as ++ bs) := by
  obtain ⟨l, hl, hpl⟩ := hp.lineTrace
  obtain ⟨m, hm, hqm⟩ := hq.lineTrace
  refine ⟨?_, ?_, l ++ m, fits_append hl hm, ?_⟩ <;> rw [State.applyAll_append]
  · exact hq.lines
  · rw [hq.xferTrace, hp.xferTrace, List.append_assoc]
  · rw [hqm, hpl, List.append_assoc]

theorem State.emits_delay {s : State} {f : LineFile Level} (hf : s.lines = f) (d : DelayName) :
    s.Emits [.delay d] f [.delay d] [.delay d] :=
  ⟨hf, rfl, _, ⟨_, rfl, rfl⟩, rfl⟩

/-- A write to RS is no transfer (R5). -/
theorem State.emits_rs (s : State) (v : Level) : s.Emits [.line v .rs] { s.lines with rs := v } [] [.write .rs v] :=
  ⟨rfl, rfl, _, ⟨_, rfl, rfl⟩, rfl⟩

theorem State.emits_nibble {s : State} {rs : Level} (hrs : s.lines.rs = rs) (n : Nibble) :
    s.Emits (nibbleCode n) (nibbleLines rs n) (nibbleXfer rs n) [.nibble n] := by
  subst hrs
  refine ⟨?_, ?_, _, ⟨Config.freeDbOrder s.nibbles, [], rfl, rfl⟩, ?_⟩ <;> rw [State.applyAll_nibbleCode]
  rw [List.append_nil]

/-- `SendByte(b)` (R78). -/
theorem State.emits_byte {s : State} {rs : Level} (hrs : s.lines.rs = rs) (b : Byte) :
    s.Emits (byteCode b) (linesAfter rs b) (byteXfer rs b) (byteSegs b) := by
  have hhigh := State.emits_nibble hrs (highNibble b)
  have hboth := hhigh.append (State.emits_nibble (congrArg LineFile.rs hhigh.lines) (lowNibble b))
  rw [linesAfter_eq]
  exact hboth.append (State.emits_delay hboth.lines .tSettle)

/-- The model's test for the extra delay singles out the bytes R57 lists. -/
theorem longSettle_eq_isClearOrHome (c : Byte) : longSettle c = isClearOrHome c := by
  revert c
  decide

/-- The body of `LCD.CMD c` (R79). -/
theorem State.emits_command (s : State) (c : Byte) :
    s.Emits (commandCode c) (linesAfter false c) (commandXfer c) (commandSegs c) := by
  have hbyte := (s.emits_rs false).append (State.emits_byte (rs := false) rfl c)
  rw [commandCode, commandXfer, commandSegs, longSettle_eq_isClearOrHome]
  cases isClearOrHome c with
  | false => exact hbyte
  | true => exact hbyte.append (State.emits_delay hbyte.lines .tLong)

theorem commandCode_length (c : Byte) : (commandCode c).length = if isClearOrHome c then 19 else 18 := by
  rw [commandCode, longSettle_eq_isClearOrHome]
  cases isClearOrHome c <;> rfl

/-! ## The run of a bus program as an operation -/

/-- A bus program touches the lines, the two traces and the count of nibbles. -/
theorem State.applyAll_eq (s : State) (ps : List Prim) :
    s.applyAll ps =
      { s with
        lines := (s.applyAll ps).lines, lineTrace := (s.applyAll ps).lineTrace
        xferTrace := (s.applyAll ps).xferTrace, nibbles := (s.applyAll ps).nibbles } := by
  induction ps generalizing s with
  | nil => rfl
  | cons p ps ih => exact (ih (p.apply s)).trans (by simp [State.applyAll_cons])

/-- A request that is accepted as a bus program sends in an undisturbed run what the program emits (R16, R39). -/
theorem sendsFrom_of_emits {s : State} {i : Instr} {w : ReqWord} {ps : List Prim} {f : LineFile Level}
    {xs : List XferEvent} {segs : List Seg} (hq : s.quiet = true) (hr : s.ready = true) (hps : ps ≠ [])
    (hexec : exec i s = .next (s.start w (busCode ps)))
    (hemits : (s.start w (busCode ps)).Emits ps f xs segs) : sendsFrom s i w ps.length f xs segs := by
  obtain ⟨l, hfits, hline⟩ := hemits.lineTrace
  have hstart : s.start w (busCode ps) = { s with req := w, busy := true, upc := 0, todo := busCode ps } := by
    cases ps with
    | nil => exact absurd rfl hps
    | cons p qs => rfl
  have hrun : (s.start w (busCode ps)).running := by
    rw [hstart]
    exact ⟨hq, rfl, ((State.ready_iff s).1 hr).2⟩
  have htodo : (s.start w (busCode ps)).todo = busCode ps := by rw [hstart]
  refine ⟨_, _, l, hexec, ⟨stepN_bus_end ps hps hrun htodo, fun m hm => ?_⟩, hfits, ?_⟩
  · exact stepN_bus_busy ps [] hrun (by rw [htodo, List.append_nil]) hm
  · rw [State.applyAll_eq, hemits.lines, hemits.xferTrace, hline, hstart]
    simp

end Sys2Proof.Machine
end

section
/-! The symbolic commands and `LCD.GOTOXY` send their byte (R54, R56, R60, R95, R96). -/

namespace Sys2Proof.Machine

/-! ## An encoded word as a number (R47) -/

theorem toNat_append_eq_add {n m : Nat} (high : BitVec n) (low : BitVec m) :
    (high ++ low).toNat = high.toNat * 2 ^ m + low.toNat := by
  rw [BitVec.toNat_append, ← Nat.shiftLeft_add_eq_or_of_lt low.isLt, Nat.shiftLeft_eq]

theorem eq_ofNat_of_toNat_eq {n x : Nat} {w : BitVec n} (h : w.toNat = x) : w = BitVec.ofNat n x := by
  rw [← h, BitVec.ofNat_toNat, BitVec.setWidth_eq]

theorem wordB_eq_byteRequest (op : BitVec 4) (byte : Byte) : wordB op byte = byteRequest op.toNat byte.toNat :=
  eq_ofNat_of_toNat_eq (by simp only [wordB, toNat_append_eq_add, BitVec.toNat_ofNat]; omega)

theorem wordXY_eq_ofNat (op : BitVec 4) (col row : Byte) :
    wordXY op col row = BitVec.ofNat 64 (op.toNat * 2 ^ 60 + row.toNat * 2 ^ 8 + col.toNat) :=
  eq_ofNat_of_toNat_eq (by simp only [wordXY, toNat_append_eq_add, BitVec.toNat_ofNat]; omega)

/-! ## `LCD.CMD` of a byte, under whatever name (R56, R60, R79) -/

/-- A request accepted as the body of `LCD.CMD c` sends `c` (R79). -/
theorem sendsFrom_of_commandCode {s : State} {i : Instr} {w : ReqWord} {c : Byte} (hq : s.quiet = true)
    (hr : s.ready = true) (hexec : exec i s = .next (s.start w (busCode (commandCode c)))) :
    sendsFrom s i w (if isClearOrHome c then 19 else 18) (linesAfter false c) (commandXfer c) (commandSegs c) := by
  rw [← commandCode_length]
  exact sendsFrom_of_emits hq hr (List.cons_ne_nil _ _) hexec (State.emits_command _ c)

theorem sendsCommand_of_exec {i : Instr} {c : Byte} (h : ∀ s, exec i s = issueCommand c s) : sendsCommand i c := by
  intro s hq hr
  have hword : byteRequest 2 c.toNat = wordB 0x2 c := (wordB_eq_byteRequest 0x2 c).symm
  rw [hword]
  exact sendsFrom_of_commandCode hq hr ((h s).trans (State.issue_of_ready hr _ _))

theorem sendsCommand_of_encode {i : Instr} {c : Byte} (h : encode i = some (.command c)) : sendsCommand i c :=
  sendsCommand_of_exec (exec_of_encode_command h)

/-- Settles O18: a symbolic command is the instruction whose code is the byte. -/
theorem symbolicCommandsSendTheirByte : Obligations.SymbolicCommandsSendTheirByte :=
  ⟨sendsCommand_of_encode rfl, fun _ => sendsCommand_of_encode rfl, fun _ _ => sendsCommand_of_encode rfl,
    sendsCommand_of_encode rfl, sendsCommand_of_encode rfl, sendsCommand_of_encode rfl, sendsCommand_of_encode rfl,
    sendsCommand_of_encode rfl, sendsCommand_of_encode rfl, sendsCommand_of_encode rfl, sendsCommand_of_encode rfl,
    sendsCommand_of_encode rfl, fun _ => sendsCommand_of_encode rfl, fun _ => sendsCommand_of_encode rfl⟩

/-! ## `LCD.GOTOXY` (R95 to R97) -/

theorem rowBase_eq_rowStart (row : Byte) : rowBase row = rowStart row := by
  obtain h | h | h | h : row.toNat = 0 ∨ row.toNat = 1 ∨ row.toNat = 2 ∨ 3 ≤ row.toNat := by omega
  · simp [rowBase, rowStart, h]
  · simp [rowBase, rowStart, h]
  · simp [rowBase, rowStart, h]
  · have hne : row.toNat ≠ 0 ∧ row.toNat ≠ 1 ∧ row.toNat ≠ 2 := by omega
    simp [rowBase, rowStart, Nat.min_eq_right h, hne]

/-- With `CMD_SET_DDRAM` 0x80 the address is added to it, no bit of the two falling together (R54). -/
theorem addrCommand_eq_add {c : Config} {a : Nat} (hc : c.cmdSetDdram = 0x80) (ha : a ≤ 0x7F) :
    addrCommand c a = BitVec.ofNat 8 (0x80 + a) := by
  have hor : 0x80 ||| a = 0x80 + a := (Nat.shiftLeft_add_eq_or_of_lt (i := 7) (by omega) 1).symm
  rw [addrCommand, hc, ← hor, BitVec.ofNat_or]
  rfl

/-- A byte that carries a display address is neither clear nor home (R57). -/
theorem isClearOrHome_addr {a : Nat} (ha : a ≤ 0x7F) : isClearOrHome (BitVec.ofNat 8 (0x80 + a)) = false := by
  simp only [isClearOrHome, Bool.or_eq_false_iff, beq_eq_false_iff_ne]
  refine ⟨⟨?_, ?_⟩, ?_⟩ <;> bv_omega

theorem execLcdGotoxy_of_admitted {s : State} {col row : Byte} (hr : s.ready = true)
    (ha : displayAddr col row ≤ 0x7F) : exec (.lcdGotoxy col row) s =
      .next (s.start (wordXY 0x4 col row) (busCode (commandCode (addrCommand s.cfg (displayAddr col row))))) := by
  show execLcdGotoxy col row s = _
  rw [execLcdGotoxy, State.gate_of_ready hr, columnOk, if_pos (decide_eq_true ha)]

/-- Settles O21: an admitted cell runs the body of `LCD.CMD` with the byte that carries its address. -/
theorem gotoxySendsTheAddress : Obligations.GotoxySendsTheAddress := by
  intro col row s hq hr hddram hcell c
  have haddr : displayAddr col row = rowStart row + col.toNat := by rw [displayAddr, rowBase_eq_rowStart]
  have hbyte : addrCommand s.cfg (displayAddr col row) = c := by
    rw [haddr, addrCommand_eq_add hddram hcell, ← Nat.add_assoc]
  have hclear : isClearOrHome c = false := by
    rw [← isClearOrHome_addr hcell, ← Nat.add_assoc]
  have hsends := sendsFrom_of_commandCode hq hr (execLcdGotoxy_of_admitted hr (haddr ▸ hcell))
  rw [hbyte, wordXY_eq_ofNat] at hsends
  simpa [commandXfer, commandSegs, hclear] using hsends

end Sys2Proof.Machine
end

section
/-! The line primitives (R65 to R68). -/

namespace Sys2Proof.Machine

/-! ## One line of the latch file -/

theorem LineFile.get_set {α : Type} (f : LineFile α) (l m : Line) (v : α) :
    (f.set l v).get m = if m = l then v else f.get m := by
  cases l <;> cases m <;> rfl

/-! ## The transfer that a write makes (R5) -/

/-- A write of 0 is a transfer exactly when it lets E fall (R66). -/
theorem fallEntries_clear (f : LineFile Level) (l : Line) :
    fallEntries f l false = if l = .e ∧ f.e = true then [.entry f.rs f.dataNibble] else [] := by
  simp [fallEntries]

/-- An inversion is a transfer under the same condition as a clear, since it takes E to 0 exactly from 1 (R67). -/
theorem fallEntries_toggle (f : LineFile Level) (l : Line) :
    fallEntries f l (!f.get l) = if l = .e ∧ f.e = true then [.entry f.rs f.dataNibble] else [] := by
  by_cases hl : l = .e
  · subst hl
    simp [fallEntries, LineFile.get]
  · simp [fallEntries, hl]

/-! ## The write to a line -/

/-- What every line primitive that writes does: the line has the level, the other lines keep theirs, and besides the two
traces nothing changes. -/
theorem State.driveLine_effect (s : State) (v : Level) (l : Line) :
    (s.driveLine v l).lines.get l = v ∧ (∀ m, m ≠ l → (s.driveLine v l).lines.get m = s.lines.get m) ∧
      s.driveLine v l = { s with
        lines := (s.driveLine v l).lines
        lineTrace := s.lineTrace ++ [.write l v]
        xferTrace := s.xferTrace ++ fallEntries s.lines l v } :=
  ⟨(LineFile.get_set _ _ _ _).trans (if_pos rfl), fun _ hm => (LineFile.get_set _ _ _ _).trans (if_neg hm), rfl⟩

/-- Settles O11: a rise adds no transfer entry, whatever the level was. -/
theorem lineSetForcesOne : Obligations.LineSetForcesOne := by
  intro l s
  have h := s.driveLine_effect true l
  rw [fallEntries_rise, List.append_nil] at h
  exact ⟨_, rfl, h⟩

/-- Settles O12: the write of 0, with the entry that a fall of E makes. -/
theorem lineClrForcesZero : Obligations.LineClrForcesZero := by
  intro l s
  have h := s.driveLine_effect false l
  rw [fallEntries_clear] at h
  exact ⟨_, rfl, h⟩

/-- Settles O13: the write of the other level, which on E is a fall exactly when E was 1. -/
theorem lineTglInverts : Obligations.LineTglInverts := by
  intro l s
  have h := s.driveLine_effect (!s.lines.get l) l
  rw [fallEntries_toggle] at h
  exact ⟨_, rfl, h⟩

/-! ## The read of an input -/

theorem exec_lineRd (k : Button) (s : State) : exec (.lineRd k) s = .next { s with rdValue := s.inp.get k } := rfl

/-- Settles O14: one equation for the three inputs. -/
theorem lineRdReturnsTheLiveLevel : Obligations.LineRdReturnsTheLiveLevel := fun s =>
  ⟨exec_lineRd .up s, exec_lineRd .enter s, exec_lineRd .down s⟩

end Sys2Proof.Machine
end

section
/-! What a micro-step can do, said once (R17, R39, R98, R111, R113, R116). -/

namespace Sys2Proof.Machine

/-- The changes the sequencer's next micro-step can make, each with what was left of the operation. -/
inductive MicroChange (s : State) : State → Prop
  | nothingLeft (hs : s.todo = []) : MicroChange s (s.endOp 0)
  | bus (p : Prim) (rest : List Micro) (hs : s.todo = .bus p :: rest) :
      MicroChange s ((p.apply s).countStep.goOn rest)
  | overrun (a : Nat) (rest : List Micro) (hs : s.todo = .text a :: rest) :
      MicroChange s { s with mark := some (.fault (.textOverrun a)) }
  | terminator (a : Nat) (rest : List Micro) (hs : s.todo = .text a :: rest) : MicroChange s (s.countStep.goOn rest)
  | character (a : Nat) (rest : List Micro) (ch : Byte) (hs : s.todo = .text a :: rest) :
      MicroChange s { s.countStep with todo := busCode (characterCode ch) ++ .text (a + 1) :: rest }
  | pressed (k : Button) (rest : List Micro) (hs : s.todo = .test k :: rest) :
      MicroChange s { s.countStep with todo := .wait k :: rest }
  | held (k : Button) (rest : List Micro) (hs : s.todo = .wait k :: rest) : MicroChange s s.countStep
  | answer (k : Button) (rest : List Micro) (r : Byte)
      (hs : s.todo = .test k :: rest ∨ s.todo = .wait k :: rest ∨ s.todo = .load k :: rest) :
      MicroChange s (s.countStep.endOp r)

/-- Every micro-step makes one of the changes. -/
theorem State.microStep_change {s t : State} (h : s.microStep = t) : MicroChange s t := by
  subst h
  unfold State.microStep
  split
  · next hs => exact .nothingLeft hs
  · next m rest hs =>
    cases m with
    | bus p => exact .bus p rest hs
    | text a =>
      simp only [State.micro, State.textMicro]
      split
      · exact .overrun a rest hs
      · split
        · exact .terminator a rest hs
        · exact .character a rest _ hs
    | test k =>
      simp only [State.micro]
      split
      · exact .pressed k rest hs
      · exact .answer k rest 0 (.inl hs)
    | wait k =>
      simp only [State.micro]
      split
      · exact .answer k rest 1 (.inr (.inl hs))
      · exact .held k rest hs
    | load k => exact .answer k rest _ (.inr (.inr hs))

end Sys2Proof.Machine
end

section
/-! Whatever ticks fall into a display operation, its main context goes through the same states (R84, R134, R136). -/

namespace Sys2Proof.Machine

/-! ## What a step leaves of the script, and of a display operation -/

@[simp] theorem State.start_script (s : State) (w : ReqWord) (ops : List Micro) :
    (s.start w ops).script = s.script := by rw [State.start_frame]

/-- A step uses up at most the head of the script (R39). -/
theorem step_script_suffix {s t : State} (h : step s = .next t) : t.script <:+ s.script := by
  obtain ⟨rest, hc⟩ := step_change h
  have hown : s.OwnTurn rest → rest <:+ s.script := by
    rintro (⟨hs, rfl⟩ | hs)
    · exact List.nil_suffix
    · exact ⟨[.go], hs.symm⟩
  cases hc with
  | leave ho | fastHandler ho | slowHandler ho | idle ho => simpa using hown ho
  | micro ho => simpa using hown ho
  | start _ _ hs | refuse _ hs | clearDue hs | tick _ hs | levels _ _ _ hs | rst hs => simp [hs]

/-- A display operation stays one: its micro-steps bring in none that reads a counter (R98, R111). -/
theorem State.microStep_readsNoCounter {s : State} (h : s.todo.all Micro.readsNoCounter = true) :
    s.microStep.todo.all Micro.readsNoCounter = true := by
  generalize ht : s.microStep = t
  cases State.microStep_change ht with
  | nothingLeft | answer => rfl
  | bus _ rest hs | terminator _ rest hs => simpa [hs, Micro.readsNoCounter] using h
  | overrun => exact h
  | character _ rest ch hs => simpa [hs, busCode, Micro.readsNoCounter] using h
  | pressed _ _ hs | held _ _ hs => simp [hs, Micro.readsNoCounter] at h

/-! ## The simulation -/

/-- `v` is a quiet state with the main context's side of `s`. -/
def State.Shadows (v s : State) : Prop := v.quiet = true ∧ v.mainView = s.mainView

theorem State.alone_shadows (s : State) : s.alone.Shadows s := ⟨rfl, rfl⟩

/-- The operation in progress reads no counter, and what is to come is neither a request nor a reset. -/
def State.DisplayRun (s : State) : Prop :=
  s.todo.all Micro.readsNoCounter = true ∧ s.script.all Event.onlyInterrupts = true

/-- A step of such a run leaves the main context's side as it is, or the step is its next micro-step (R84). -/
theorem State.DisplayRun.step_mainView {s t : State} (hd : s.DisplayRun) (h : step s = .next t) :
    t.mainView = s.mainView ∨ (t.mainView = s.microStep.mainView ∧ s.busy = true ∧ s.mark = none) := by
  have hhead : ∀ ev, s.script.head? = some ev → ev.onlyInterrupts = true := fun ev hev =>
    List.all_eq_true.1 hd.2 ev (List.mem_of_mem_head? hev)
  refine or_iff_not_imp_left.2 fun hne => ?_
  obtain ⟨w, hw⟩ | hrst | ⟨-, hview, -, -, -, hb, hm⟩ := handlersLeaveTheMainContextAlone s t h hne
  · cases hhead _ hw
  · cases hhead _ hrst
  · exact ⟨hview, hb, hm⟩

theorem State.DisplayRun.step {s t : State} (hd : s.DisplayRun) (h : Machine.step s = .next t) : t.DisplayRun := by
  refine ⟨?_, List.all_eq_true.2 fun ev hev => List.all_eq_true.1 hd.2 ev ((step_script_suffix h).subset hev)⟩
  obtain hview | ⟨hview, -⟩ := hd.step_mainView h
  · rw [show t.todo = s.todo from congrArg MainView.todo hview]
    exact hd.1
  · rw [show t.todo = s.microStep.todo from congrArg MainView.todo hview]
    exact State.microStep_readsNoCounter hd.1

/-- The commuting square of one step: the shadow waits, or does its micro-step too. -/
theorem State.Shadows.step {v s t : State} (hv : v.Shadows s) (hd : s.DisplayRun) (h : Machine.step s = .next t) :
    v.Shadows t ∨ ∃ v', Machine.step v = .next v' ∧ v'.Shadows t := by
  obtain ⟨hq, hsame⟩ := hv
  obtain hview | ⟨hview, hb, hm⟩ := hd.step_mainView h
  · exact .inl ⟨hq, hsame.trans hview.symm⟩
  · have hvb : v.busy = true := (congrArg MainView.busy hsame).trans hb
    have hvm : v.mark = none := (congrArg MainView.mark hsame).trans hm
    exact .inr ⟨v.microStep, step_of_quiet_busy hq hvb hvm, State.microStep_quiet hq,
      (State.microStep_mainView_congr hsame (.inl hd.1)).trans hview.symm⟩

/-- The squares put together: a shadow can follow a whole run, with no more steps. -/
theorem State.Shadows.stepN {n : Nat} {v s u : State} (hv : v.Shadows s) (hd : s.DisplayRun)
    (h : Machine.stepN n s = .next u) : ∃ m v', m ≤ n ∧ Machine.stepN m v = .next v' ∧ v'.Shadows u := by
  induction n generalizing v s with
  | zero =>
    cases h
    exact ⟨0, v, Nat.le_refl 0, rfl, hv⟩
  | succ n ih =>
    cases hs : Machine.step s with
    | next t =>
      rw [stepN_succ_of_next hs] at h
      obtain hwait | ⟨v₁, hv₁, hmove⟩ := hv.step hd hs
      · obtain ⟨m, v', hle, hrun, hend⟩ := ih hwait (hd.step hs) h
        exact ⟨m, v', Nat.le_succ_of_le hle, hrun, hend⟩
      · obtain ⟨m, v', hle, hrun, hend⟩ := ih hmove (hd.step hs) h
        exact ⟨m + 1, v', Nat.succ_le_succ hle, (stepN_succ_of_next hv₁).trans hrun, hend⟩
    | fault f => rw [stepN_succ, hs] at h; cases h
    | refused r => rw [stepN_succ, hs] at h; cases h

/-- Settles O45: the undisturbed run shadows the disturbed one, waiting while a tick, a level change or the host's event
is dealt with. -/
theorem displayOperationsAreImmuneToInterrupts : Obligations.DisplayOperationsAreImmuneToInterrupts := by
  intro n s u htodo hscript h
  obtain ⟨m, v, hle, hrun, -, hview⟩ := s.alone_shadows.stepN ⟨htodo, hscript⟩ h
  exact ⟨m, v, hle, hrun, hview⟩

end Sys2Proof.Machine
end

section
/-! The bus discipline (R83): every step keeps the invariant, and the bus is stable while E is high. -/

namespace Sys2Proof.Machine

/-! ## The micro-steps that operations are made of keep the discipline (R77 to R81, R98, R100) -/

/-- From E low the bus program keeps the discipline and leaves E low, so that all depends on what comes after it. -/
def StrobesWhole (ps : List Prim) : Prop := ∀ rest, strobeOk false (busCode ps ++ rest) = strobeOk false rest

theorem StrobesWhole.nil : StrobesWhole [] := fun _ => rfl

theorem StrobesWhole.append {ps qs : List Prim} (hp : StrobesWhole ps) (hq : StrobesWhole qs) :
    StrobesWhole (ps ++ qs) := fun rest => by
  rw [busCode, List.map_append, List.append_assoc]
  exact (hp _).trans (hq rest)

theorem strobesWhole_delay (d : DelayName) : StrobesWhole [.delay d] := fun _ => rfl

theorem strobesWhole_rs (v : Level) : StrobesWhole [.line v .rs] := fun _ => rfl

theorem strobesWhole_nibbleCode (n : Nibble) : StrobesWhole (nibbleCode n) := fun _ => rfl

theorem strobesWhole_byteCode (b : Byte) : StrobesWhole (byteCode b) :=
  ((strobesWhole_nibbleCode _).append (strobesWhole_nibbleCode _)).append (strobesWhole_delay _)

theorem strobesWhole_characterCode (c : Byte) : StrobesWhole (characterCode c) :=
  (strobesWhole_rs true).append (strobesWhole_byteCode c)

theorem strobesWhole_commandCode (c : Byte) : StrobesWhole (commandCode c) := by
  refine (strobesWhole_rs false).append ((strobesWhole_byteCode c).append ?_)
  split
  · exact strobesWhole_delay _
  · exact .nil

theorem strobesWhole_initCode (c : Config) : StrobesWhole (initCode c) := by
  have hpulse : ∀ {ps} n d, StrobesWhole ps → StrobesWhole (ps ++ nibbleCode n ++ [.delay d]) := fun n d h =>
    (h.append (strobesWhole_nibbleCode n)).append (strobesWhole_delay d)
  have hpulses := hpulse c.fs4Nib .tSettle <| hpulse c.fs8Nib .tFS3 <| hpulse c.fs8Nib .tFS2 <|
    hpulse c.fs8Nib .tFS1 .nil
  exact (strobesWhole_rs false).append <| ((hpulses.append (strobesWhole_commandCode _)).append
    (strobesWhole_commandCode _)).append (strobesWhole_commandCode _)

theorem strobesWhole_bufferCode (buf : List Byte) : StrobesWhole (bufferCode buf) := by
  induction buf with
  | nil => exact .nil
  | cons c cs ih => exact (strobesWhole_characterCode c).append ih

theorem StrobesWhole.strobeOk {ps : List Prim} (h : StrobesWhole ps) : strobeOk false (busCode ps) = true := by
  simpa [Machine.strobeOk] using h []

/-! ## The operation a request starts -/

@[simp] theorem State.start_lines (s : State) (w : ReqWord) (ops : List Micro) : (s.start w ops).lines = s.lines := by
  rw [State.start_frame]
@[simp] theorem State.start_lineDir (s : State) (w : ReqWord) (ops : List Micro) :
    (s.start w ops).lineDir = s.lineDir := by rw [State.start_frame]
@[simp] theorem State.start_inDir (s : State) (w : ReqWord) (ops : List Micro) :
    (s.start w ops).inDir = s.inDir := by rw [State.start_frame]
@[simp] theorem State.start_inIsr (s : State) (w : ReqWord) (ops : List Micro) :
    (s.start w ops).inIsr = s.inIsr := by rw [State.start_frame]
@[simp] theorem State.start_todo (s : State) (w : ReqWord) (ops : List Micro) : (s.start w ops).todo = ops := by
  rw [State.start_frame]

/-- The outcome, when it is a next state, is one with an operation to do that keeps the discipline from E low. -/
def StartsStrobeOk (o : Host.Outcome State Fault Refusal) : Prop := ∀ t, o = .next t → strobeOk false t.todo = true

theorem startsStrobeOk_start (s : State) (w : ReqWord) {ops : List Micro} (h : strobeOk false ops = true) :
    StartsStrobeOk (.next (s.start w ops)) := by
  rintro t ⟨⟩
  rwa [State.start_todo]

theorem startsStrobeOk_refused (r : Refusal) : StartsStrobeOk (.refused r) := by
  rintro t ⟨⟩

theorem StartsStrobeOk.gate {o : Host.Outcome State Fault Refusal} (h : StartsStrobeOk o) (s : State) :
    StartsStrobeOk (s.gate o) := fun t ht => h t (State.gate_next ht).2

theorem startsStrobeOk_issue (s : State) (w : ReqWord) {ops : List Micro} (h : strobeOk false ops = true) :
    StartsStrobeOk (s.issue w ops) :=
  (startsStrobeOk_start s w h).gate s

theorem startsStrobeOk_issueButton (s : State) (w : ReqWord) (k : BitVec 2) {ops : Button → List Micro}
    (h : ∀ b, strobeOk false (ops b) = true) : StartsStrobeOk (issueButton w k ops s) := by
  unfold issueButton
  split
  · exact startsStrobeOk_issue s w (h _)
  · exact fun t ht => absurd ht (refuseReserved_not_next w s t)

theorem startsStrobeOk_issueCommand (c : Byte) (s : State) : StartsStrobeOk (issueCommand c s) :=
  startsStrobeOk_issue s _ (strobesWhole_commandCode c).strobeOk

theorem startsStrobeOk_gotoxy (col row : Byte) (s : State) : StartsStrobeOk (execLcdGotoxy col row s) := by
  refine StartsStrobeOk.gate ?_ s
  split
  · exact startsStrobeOk_start s _ (strobesWhole_commandCode _).strobeOk
  · exact startsStrobeOk_refused _

theorem startsStrobeOk_wrnum (value : BitVec 32) (width fill base : Byte) (s : State) :
    StartsStrobeOk (execLcdWrnum value width fill base s) := by
  refine StartsStrobeOk.gate ?_ s
  split_ifs
  · exact startsStrobeOk_start s _ (strobesWhole_bufferCode _).strobeOk
  all_goals exact startsStrobeOk_refused _

/-- Every operation a request starts keeps the discipline from E low. -/
theorem exec_request_startsStrobeOk {i : Instr} (hi : isRequest i = true) (s : State) : StartsStrobeOk (exec i s) := by
  cases i with
  | lcdInit => exact startsStrobeOk_issue s _ (strobesWhole_initCode s.cfg).strobeOk
  | lcdChr c => exact startsStrobeOk_issue s _ (strobesWhole_characterCode c).strobeOk
  | lcdWrstr => exact startsStrobeOk_issue s _ rfl
  | lcdGotoxy col row => exact startsStrobeOk_gotoxy col row s
  | lcdWrnum value width fill base => exact startsStrobeOk_wrnum value width fill base s
  | btnPressed k | btnRdcnt k => exact startsStrobeOk_issueButton s _ k fun _ => rfl
  | lcdCmd => exact startsStrobeOk_issueCommand _ s
  | cmdClear | cmdHome | cmdEntry | cmdDispOff | cmdDispOn | cmdCursorOn | cmdCursorBlink =>
    exact startsStrobeOk_issueCommand _ s
  | cmdShiftCurL | cmdShiftCurR | cmdShiftDspL | cmdShiftDspR | cmdFuncset | cmdSetCgram | cmdSetDdram =>
    exact startsStrobeOk_issueCommand _ s
  | reserved0 | reserved7 | reservedA | reservedB | reservedC | reservedD | reservedE | reservedF => cases hi
  | tickFast | tickSlow | rst => cases hi
  | lineSet | lineClr | lineTgl | lineRd | sendNibble | sendByte => cases hi

/-- A decoded word that starts an operation starts one that keeps the discipline from E low. -/
theorem strobeOk_of_exec_decoded {w : ReqWord} {i : Instr} {s t : State} (hd : decodeRequest w = .ok i)
    (h : exec i s = .next t) : strobeOk false t.todo = true := by
  rcases decodeRequest_kind hd with hi | hi
  · exact exec_request_startsStrobeOk hi s t h
  · exact absurd h (exec_reserved hi s t)

/-! ## One micro-step of an operation that keeps the discipline -/

/-- A data write leaves E alone (R76). -/
theorem Prim.apply_data_e (n : Nibble) (j : Fin 4) (s : State) : (Prim.apply (.data n j) s).lines.e = s.lines.e := by
  fin_cases j <;> rfl

/-- What is left after a bus micro-step keeps the discipline from where that leaves E. -/
theorem strobeOk_after_bus {p : Prim} {rest : List Micro} {s : State}
    (h : strobeOk s.lines.e (.bus p :: rest) = true) : strobeOk (p.apply s).lines.e rest = true := by
  cases p with
  | line v l => cases l <;> exact (Bool.and_eq_true_iff.1 h).2
  | data n j =>
    rw [Prim.apply_data_e]
    exact (Bool.and_eq_true_iff.1 h).2
  | delay d => exact h

/-- What a micro-step leaves to do keeps the discipline from where it leaves E. -/
theorem State.microStep_strobeOk {s : State} (h : strobeOk s.lines.e s.todo = true) :
    strobeOk s.microStep.lines.e s.microStep.todo = true := by
  generalize ht : s.microStep = t
  cases State.microStep_change ht with
  | nothingLeft hs => simpa [hs] using h
  | bus p rest hs =>
    rw [hs] at h
    simpa using strobeOk_after_bus h
  | overrun | held => exact h
  | terminator _ rest hs =>
    rw [hs] at h
    simpa using (Bool.and_eq_true_iff.1 h).2
  | character _ rest ch hs =>
    have hlow : s.lines.e = false ∧ strobeOk s.lines.e rest = true := by simpa [hs, strobeOk] using h
    simpa [hlow.1, strobesWhole_characterCode ch _, strobeOk] using hlow.2
  | pressed _ rest hs => simpa [hs, strobeOk] using h
  | answer _ rest _ hs =>
    have hlow : s.lines.e = false := by
      obtain hs | hs | hs := hs <;> exact (by simpa [hs, strobeOk] using h : _ ∧ _).1
    simp [hlow, strobeOk]

theorem State.goOn_busy_or_done (rest : List Micro) (s : State) :
    (s.goOn rest).busy = s.busy ∨ (s.goOn rest).todo = [] := by
  cases rest with
  | nil => exact .inr rfl
  | cons m ms => exact .inl rfl

/-- A micro-step leaves the block busy, or leaves nothing to do (R16, R17). -/
theorem State.microStep_busy_or_done (s : State) : s.microStep.busy = s.busy ∨ s.microStep.todo = [] := by
  generalize ht : s.microStep = t
  cases State.microStep_change ht with
  | bus p rest => exact Prim.apply_busy p s ▸ State.goOn_busy_or_done rest (p.apply s).countStep
  | terminator _ rest => exact State.goOn_busy_or_done rest s.countStep
  | nothingLeft | answer => exact .inr rfl
  | overrun | character | pressed | held => exact .inl rfl

/-! ## The invariant -/

/-- Nothing of the invariant is about the script. -/
theorem State.Inv.withScript {s : State} (h : s.Inv) (rest : List Event) : State.Inv { s with script := rest } :=
  ⟨h.strobe, h.idle, h.noIsr, h.text, h.dirs⟩

theorem State.Inv.microStep {s : State} (h : s.Inv) (hb : s.busy = true) : s.microStep.Inv := by
  obtain ⟨-, -, -, -, -, -, -, -, -, hlineDir, hinDir, -⟩ := s.microStep_outside
  refine ⟨State.microStep_strobeOk h.strobe, fun hidle => ?_, ?_, ?_, ?_⟩
  · refine s.microStep_busy_or_done.resolve_left fun hsame => ?_
    simp [hidle, hb] at hsame
  · rw [State.microStep_inIsr, h.noIsr]
  · rw [State.microStep_cfg, State.microStep_txt]
    exact h.text
  · rw [hlineDir, hinDir]
    exact h.dirs

/-- Idle, E is low. -/
theorem State.Inv.e_low_of_idle {s : State} (h : s.Inv) (hb : s.busy = false) : s.lines.e = false := by
  simpa [h.idle hb, strobeOk] using h.strobe

theorem State.Inv.start {s : State} {w : ReqWord} {ops : List Micro} (h : s.Inv) (hb : s.busy = false)
    (hops : strobeOk false ops = true) : (s.start w ops).Inv := by
  refine ⟨?_, fun hidle => ?_, ?_, ?_, ?_⟩
  · rwa [State.start_lines, State.start_todo, h.e_low_of_idle hb]
  · cases ops with
    | nil => rfl
    | cons m ms => cases hidle
  · rw [State.start_inIsr, h.noIsr]
  · rw [State.start_cfg, State.start_txt]
    exact h.text
  · rw [State.start_lineDir, State.start_inDir]
    exact h.dirs

/-- Settles O51: of the changes a step can make, a micro-step, the start of an operation and a reset are those the
invariant has something to say about. -/
theorem everyStepKeepsTheInvariant : Obligations.EveryStepKeepsTheInvariant := by
  intro s t hinv h
  obtain ⟨rest, hc⟩ := step_change h
  have hrest := hinv.withScript rest
  have ⟨hstrobe, hidle, hisr, htext, hdirs⟩ := hrest
  cases hc with
  | micro _ _ _ _ _ hb => exact hrest.microStep hb
  | start w ops _ hr hd he =>
    have hops := strobeOk_of_exec_decoded hd he
    rw [State.start_todo] at hops
    exact hrest.start ((State.ready_iff s).1 hr).1 hops
  | rst => exact ⟨rfl, fun _ => rfl, rfl, htext, rfl, rfl⟩
  | leave | fastHandler | slowHandler => exact ⟨hstrobe, hidle, rfl, htext, hdirs⟩
  | tick src => cases src <;> exact ⟨hstrobe, hidle, hisr, htext, hdirs⟩
  | idle | refuse | clearDue | levels => exact ⟨hstrobe, hidle, hisr, htext, hdirs⟩

/-! ## The bus while E is high -/

/-- A bus micro-step that the discipline allows while E is high is a delay or lets E fall. -/
theorem Prim.apply_lines_of_e_high {p : Prim} {rest : List Micro} (h : strobeOk true (.bus p :: rest) = true)
    (s : State) : (p.apply s).lines = s.lines ∨ (p.apply s).lines = { s.lines with e := false } := by
  cases p with
  | line v l =>
    cases l with
    | e =>
      have hv : v = false := by simpa using (Bool.and_eq_true_iff.1 h).1
      subst hv
      exact .inr rfl
    | rs | db7 | db6 | db5 | db4 => cases h
  | data n j => cases h
  | delay d => exact .inl rfl

theorem State.microStep_lines_of_e_high {s : State} (h : strobeOk s.lines.e s.todo = true) (he : s.lines.e = true) :
    s.microStep.lines = s.lines ∨ s.microStep.lines = { s.lines with e := false } := by
  rw [he] at h
  generalize ht : s.microStep = t
  cases State.microStep_change ht with
  | bus p rest hs =>
    rw [hs] at h
    simpa using Prim.apply_lines_of_e_high h s
  | _ => exact .inl (by simp)

/-- Settles O52: of the changes a step can make, only a micro-step and a reset write a line. -/
theorem busIsStableWhileEIsHigh : Obligations.BusIsStableWhileEIsHigh := by
  intro s t hinv he h hrst
  obtain ⟨rest, hc⟩ := step_change h
  cases hc with
  | micro => exact State.microStep_lines_of_e_high (hinv.withScript rest).strobe he
  | rst hs => exact absurd (by rw [hs]; rfl) hrst
  | _ => exact .inl (by simp)

end Sys2Proof.Machine
end

section
/-! The bus primitives and the display operations of the bus (R76 to R81, R86). -/

namespace Sys2Proof.Machine

/-! ## The bus primitives as instructions (R77, R78) -/

theorem exec_sendNibble (n : Nibble) (s : State) : exec (.sendNibble n) s = .next (s.applyAll (nibbleCode n)) := rfl

theorem exec_sendByte (b : Byte) (s : State) : exec (.sendByte b) s = .next (s.applyAll (byteCode b)) := rfl

/-- Settles O15: the eight micro-steps of a nibble, in the order of data writes that is free. -/
theorem sendNibblePulsesOnce : Obligations.SendNibblePulsesOnce := by
  intro n s
  refine ⟨_, nibbleTrace (Config.freeDbOrder s.nibbles) n, exec_sendNibble n s,
    ⟨Config.freeDbOrder s.nibbles, [], (List.append_nil _).symm, rfl⟩, ?_⟩
  rw [State.applyAll_nibbleCode]
  rfl

/-- Each of a byte's two nibbles advances the count of nibbles (R78). -/
theorem State.applyAll_byteCode_nibbles (s : State) (b : Byte) :
    (s.applyAll (byteCode b)).nibbles = s.nibbles + 2 := by
  rw [byteCode, State.applyAll_append, State.applyAll_append, State.applyAll_nibbleCode, State.applyAll_nibbleCode]
  rfl

/-- Settles O16: the two nibbles and the settle delay that a byte emits. -/
theorem sendByteSendsHighNibbleFirst : Obligations.SendByteSendsHighNibbleFirst := by
  intro b s
  have hemits := State.emits_byte (s := s) rfl b
  obtain ⟨l, hfits, hline⟩ := hemits.lineTrace
  refine ⟨_, l, exec_sendByte b s, hfits, ?_⟩
  rw [State.applyAll_eq, hemits.lines, hemits.xferTrace, hline, State.applyAll_byteCode_nibbles]
  rfl

/-! ## `LCD.CMD` and `LCD.CHR` (R79, R80) -/

/-- Settles O17: `LCD.CMD c` is the request that issues `c`. -/
theorem lcdCmdSendsTheCommand : Obligations.LcdCmdSendsTheCommand := fun _ => sendsCommand_of_exec fun _ => rfl

/-- The body of `LCD.CHR c` (R80). -/
theorem State.emits_character (s : State) (c : Byte) :
    s.Emits (characterCode c) (linesAfter true c) (charXfer c) (charSegs c) :=
  (s.emits_rs true).append (State.emits_byte rfl c)

/-- Settles O19: `LCD.CHR c` is accepted as the program that emits the character. -/
theorem lcdChrSendsTheCharacter : Obligations.LcdChrSendsTheCharacter := by
  intro c s hq hr
  have hword : byteRequest 3 c.toNat = wordB 0x3 c := (wordB_eq_byteRequest 0x3 c).symm
  rw [hword]
  exact sendsFrom_of_emits (ps := characterCode c) hq hr (List.cons_ne_nil _ _) (State.issue_of_ready hr _ _)
    (State.emits_character _ c)

/-! ## `LCD.INIT` (R81) -/

/-- A pulse of the initialization, a nibble and the delay after it, behind a program that leaves RS low. -/
theorem State.Emits.initPulse {s : State} {ps : List Prim} {f : LineFile Level} {xs : List XferEvent} {segs : List Seg}
    (h : s.Emits ps f xs segs) (hrs : f.rs = false) (n : Nibble) (d : DelayName) :
    s.Emits (ps ++ nibbleCode n ++ [Prim.delay d]) (nibbleLines false n)
      (xs ++ nibbleXfer false n ++ [XferEvent.delay d]) (segs ++ [Seg.nibble n] ++ [Seg.delay d]) := by
  have hn := h.append (State.emits_nibble ((congrArg LineFile.rs h.lines).trans hrs) n)
  exact hn.append (State.emits_delay hn.lines d)

/-- The body of `LCD.CMD c` behind another program. -/
theorem State.Emits.command {s : State} {ps : List Prim} {f : LineFile Level} {xs : List XferEvent} {segs : List Seg}
    (h : s.Emits ps f xs segs) (c : Byte) :
    s.Emits (ps ++ commandCode c) (linesAfter false c) (xs ++ commandXfer c) (segs ++ commandSegs c) :=
  h.append (State.emits_command _ c)

/-- The nibbles and bytes R81 gives the parameters. -/
def InitAsListed (c : Config) : Prop :=
  c.fs8Nib = 0x3 ∧ c.fs4Nib = 0x2 ∧ c.cmdFuncset = 0x28 ∧ c.cmdDispOn = 0x0C ∧ c.cmdClear = 0x01

/-- The body of `LCD.INIT` (R81). -/
theorem State.emits_init (s : State) {c : Config} (hc : InitAsListed c) :
    s.Emits (initCode c) (linesAfter false 0x01) initXfer initSegs := by
  obtain ⟨h8, h4, hfunc, hon, hclear⟩ := hc
  have hpulses := ((((s.emits_rs false).initPulse rfl 0x3 .tFS1).initPulse rfl 0x3 .tFS2).initPulse rfl
    0x3 .tFS3).initPulse rfl 0x2 .tSettle
  have hbody := ((hpulses.command 0x28).command 0x0C).command 0x01
  simpa [initCode, initXfer, initSegs, h8, h4, hfunc, hon, hclear] using hbody

theorem initCode_length {c : Config} (hc : InitAsListed c) : (initCode c).length = 92 := by
  obtain ⟨-, -, hfunc, hon, hclear⟩ := hc
  simp [initCode, nibbleCode, commandCode_length, hfunc, hon, hclear, isClearOrHome]

/-- Settles O20: `LCD.INIT` is accepted as the program that emits the sequence of R81. -/
theorem lcdInitRunsTheSequence : Obligations.LcdInitRunsTheSequence := by
  intro s hq hr h8 h4 hfunc hon hclear
  have hc : InitAsListed s.cfg := ⟨h8, h4, hfunc, hon, hclear⟩
  have hword : wordZ 0x1 = 0x1000000000000000#64 := rfl
  have hsends := sendsFrom_of_emits (i := .lcdInit) (ps := initCode s.cfg) hq hr (List.cons_ne_nil _ _)
    (State.issue_of_ready hr _ _) (State.emits_init _ hc)
  rwa [initCode_length hc, hword] at hsends

/-! ## The clear command twice (R86) -/

/-- After an operation that sent something the next request finds the block as undisturbed and as ready (R16). -/
theorem sendsFrom_run {s : State} {i : Instr} {w : ReqWord} {n : Nat} {f : LineFile Level} {xs : List XferEvent}
    {segs : List Seg} (hq : s.quiet = true) (hr : s.ready = true) (h : sendsFrom s i w n f xs segs) :
    ∃ t u, exec i s = .next t ∧ stepN n t = .next u ∧ u.lines = f ∧ u.xferTrace = s.xferTrace ++ xs ∧
      u.quiet = true ∧ u.ready = true := by
  obtain ⟨t, u, l, hexec, ⟨hrun, -⟩, -, hu⟩ := h
  have hmark : s.mark = none := ((State.ready_iff s).1 hr).2
  exact ⟨t, u, hexec, hrun, by rw [hu], by rw [hu], by rw [hu]; exact hq, by rw [hu]; simp [State.ready_iff, hmark]⟩

/-- Settles O29: the second run starts, as the first does, from an undisturbed block that may take a request. -/
theorem clearTwiceLeavesTheLinesAsOnce : Obligations.ClearTwiceLeavesTheLinesAsOnce := by
  intro s hq hr
  obtain ⟨t, u, htu, hu, hulines, huxfer, huq, hur⟩ := sendsFrom_run hq hr (lcdCmdSendsTheCommand 0x01 s hq hr)
  obtain ⟨v, w, hvw, hw, hwlines, hwxfer, -⟩ := sendsFrom_run huq hur (lcdCmdSendsTheCommand 0x01 u huq hur)
  have hxfer : w.xferTrace = s.xferTrace ++ commandXfer 0x01 ++ commandXfer 0x01 := by rw [hwxfer, huxfer]
  refine ⟨t, u, v, w, htu, hu, hvw, hw, hwlines.trans hulines.symm, ?_, hxfer⟩
  rw [State.transfers, hxfer, List.append_assoc, List.filterMap_append]
  rfl

end Sys2Proof.Machine
end

section
/-! The cells `LCD.GOTOXY` admits, and the operands `LCD.WRNUM` admits (R97, R100, R103). -/

namespace Sys2Proof.Machine

/-! ## `LCD.GOTOXY` (R97) -/

theorem displayAddr_le_iff (col row : Byte) : displayAddr col row ≤ 0x7F ↔
    (row.toNat = 0 ∧ col.toNat ≤ 0x7F) ∨ (row.toNat = 1 ∧ col.toNat ≤ 0x3F) ∨
      (row.toNat = 2 ∧ col.toNat ≤ 0x6B) ∨ (3 ≤ row.toNat ∧ col.toNat ≤ 0x2B) := by
  rw [displayAddr, rowBase_eq_rowStart, rowStart]
  split_ifs <;> omega

theorem execLcdGotoxy_of_outside {s : State} {col row : Byte} (hr : s.ready = true)
    (ha : ¬ displayAddr col row ≤ 0x7F) : exec (.lcdGotoxy col row) s = .refused (.columnRange col row) := by
  show execLcdGotoxy col row s = _
  rw [execLcdGotoxy, State.gate_of_ready hr, columnOk, if_neg (by simpa using ha)]

/-- Settles O22: a cell is refused when its address exceeds 0x7F, and starts an operation otherwise. -/
theorem gotoxyColumnDomain : Obligations.GotoxyColumnDomain := by
  intro col row s hr
  rw [← displayAddr_le_iff]
  refine ⟨fun hrefused ha => ?_, execLcdGotoxy_of_outside hr⟩
  rw [execLcdGotoxy_of_admitted hr ha] at hrefused
  cases hrefused

/-! ## `LCD.WRNUM` (R100, R103) -/

theorem baseOk_iff (c : Config) (base : Byte) : baseOk c base = true ↔ 2 ≤ base.toNat ∧ base.toNat ≤ c.maxBase := by
  simp [baseOk]

theorem fillOk_iff (width fill : Byte) : fillOk width fill = true ↔ fill ≠ 0 ∨ width = 0 := by
  simp [fillOk]

/-- Of a ready block and a value of `VALUE_BITS` bits, the base is checked before the fill (R103, R148). -/
theorem exec_lcdWrnum {s : State} {value : BitVec 32} (hr : s.ready = true) (hv : value.toNat < 2 ^ s.cfg.valueBits)
    (width fill base : Byte) : exec (.lcdWrnum value width fill base) s =
      if baseOk s.cfg base then
        if fillOk width fill then
          .next (s.start (wordN 0x6 value width fill base)
            (busCode (bufferCode (formatBuffer value.toNat width.toNat fill base.toNat))))
        else .refused .nulFill
      else .refused (.base base) := by
  show execLcdWrnum value width fill base s = _
  rw [execLcdWrnum, State.gate_of_ready hr, valueOk, if_pos (decide_eq_true hv)]

/-- Settles O28: the two conditions on the operands are the two checks that fail. -/
theorem wrnumDomain : Obligations.WrnumDomain := by
  intro value width fill base s hr hmax hv
  have hbase : baseOk s.cfg base = true ↔ 2 ≤ base.toNat ∧ base.toNat ≤ 36 := by rw [baseOk_iff, hmax]
  have hwidth : 0 < width.toNat ↔ width ≠ 0 := by bv_omega
  have hout : (base.toNat < 2 ∨ 36 < base.toNat) ↔ ¬ baseOk s.cfg base = true := by
    rw [hbase]
    omega
  have hnull : (2 ≤ base.toNat ∧ base.toNat ≤ 36 ∧ fill = 0 ∧ 0 < width.toNat) ↔
      baseOk s.cfg base = true ∧ ¬ fillOk width fill = true := by
    rw [hbase, fillOk_iff, hwidth, not_or, not_not, and_assoc]
  rw [exec_lcdWrnum hr hv, hout, hnull]
  split
  · next hb => split <;> next hf => simp [hb, hf]
  · next hb => simp [hb]

end Sys2Proof.Machine
end

section
/-! The numeric formatter: its loop and its closed form (R55, R100 to R102). -/

namespace Sys2Proof.Machine

/-! ## The number of digits (R101) -/

theorem digitCount_of_div_eq_zero {base v : Nat} (hb : 2 ≤ base) (hv : v / base = 0) : digitCount base v = 1 := by
  have hlt : v < base := (Nat.div_eq_zero_iff_lt (by omega)).1 hv
  obtain rfl | hpos := Nat.eq_zero_or_pos v
  · simp [digitCount]
  · rw [digitCount, Nat.digits_of_lt base v hpos.ne' hlt]
    rfl

theorem digitCount_of_div_ne_zero {base v : Nat} (hb : 2 ≤ base) (hv : v / base ≠ 0) :
    digitCount base v = digitCount base (v / base) + 1 := by
  have hpos : 0 < v := Nat.pos_of_ne_zero fun h => hv (by rw [h, Nat.zero_div])
  have hlen : (Nat.digits base (v / base)).length ≠ 0 := by
    simpa using Nat.digits_ne_nil_iff_ne_zero.2 hv
  rw [digitCount, digitCount, Nat.digits_def' hb hpos, List.length_cons]
  omega

/-! ## The field, from its last character leftwards (R101) -/

theorem fieldChar_last (v k : Nat) (fill : Byte) (base : Nat) :
    fieldChar v (k + 1) fill base k = digitChar (v % base) := by
  have hreach : ¬ k + digitCount base v < k + 1 := by
    rw [digitCount]
    omega
  rw [fieldChar, if_neg hreach, Nat.add_sub_cancel, Nat.sub_self, pow_zero, Nat.div_one]

theorem fieldChar_of_div_eq_zero {v k base i : Nat} (hb : 2 ≤ base) (hv : v / base = 0) (hi : i < k) (fill : Byte) :
    fieldChar v (k + 1) fill base i = fill := by
  rw [fieldChar, digitCount_of_div_eq_zero hb hv, if_pos (by omega)]

theorem fieldChar_of_div_ne_zero {v k base i : Nat} (hb : 2 ≤ base) (hv : v / base ≠ 0) (hi : i < k) (fill : Byte) :
    fieldChar v (k + 1) fill base i = fieldChar (v / base) k fill base i := by
  have hweight : v / base ^ (k + 1 - 1 - i) = v / base / base ^ (k - 1 - i) := by
    rw [Nat.div_div_eq_div_mul, ← pow_succ', show k - 1 - i + 1 = k + 1 - 1 - i by omega]
  rw [fieldChar, fieldChar, digitCount_of_div_ne_zero hb hv, hweight, ← Nat.add_assoc]
  simp only [Nat.add_lt_add_iff_right]

/-- What the loop writes to the left of what it has built: the field of what is left of the value, or fills when
nothing is (R100). -/
def leftPart (v k : Nat) (fill : Byte) (base : Nat) : List Byte :=
  if v = 0 then List.replicate k fill else fieldText v k fill base

theorem fieldText_succ {base : Nat} (hb : 2 ≤ base) (v k : Nat) (fill : Byte) :
    fieldText v (k + 1) fill base = leftPart (v / base) k fill base ++ [digitChar (v % base)] := by
  rw [fieldText, List.range_succ, List.map_append, List.map_singleton, fieldChar_last, leftPart]
  congr 1
  split
  · next hv =>
    refine List.eq_replicate_iff.2 ⟨by simp, fun c hc => ?_⟩
    obtain ⟨i, hi, rfl⟩ := List.mem_map.1 hc
    exact fieldChar_of_div_eq_zero hb hv (List.mem_range.1 hi) fill
  · next hv => exact List.map_congr_left fun i hi => fieldChar_of_div_ne_zero hb hv (List.mem_range.1 hi) fill

/-! ## The loop (R100) -/

theorem fillBuffer_eq {base : Nat} (hb : 2 ≤ base) (fill : Byte) (k v : Nat) (built : List Byte) :
    fillBuffer base fill k v built = leftPart v k fill base ++ built := by
  induction k generalizing v built with
  | zero => simp [fillBuffer, leftPart, fieldText]
  | succ k ih =>
    rw [fillBuffer, leftPart]
    split
    · next hv => rw [ih, leftPart, if_pos hv, List.replicate_succ', List.append_assoc, List.singleton_append]
    · rw [ih, fieldText_succ hb, List.append_assoc, List.singleton_append]

/-- Settles O26: the last character is a digit, and the loop writes what the closed form has to the left of it. -/
theorem formatterLoopEqualsClosedForm : Obligations.FormatterLoopEqualsClosedForm := by
  intro value width base fill hb
  cases width with
  | zero => rfl
  | succ k => rw [formatBuffer, fillBuffer_eq hb, fieldText_succ hb]

/-! ## The characters of the field (R55, R102) -/

theorem fieldText_length (v width : Nat) (fill : Byte) (base : Nat) : (fieldText v width fill base).length = width := by
  simp [fieldText]

theorem digitChar_ne_zero {d : Nat} (hd : d < 36) : digitChar d ≠ 0 := by
  unfold digitChar
  split <;> bv_omega

theorem fieldChar_ne_zero {base : Nat} {fill : Byte} (hb : 2 ≤ base) (hmax : base ≤ 36) (hf : fill ≠ 0)
    (v width i : Nat) : fieldChar v width fill base i ≠ 0 := by
  unfold fieldChar
  split
  · exact hf
  · exact digitChar_ne_zero (lt_of_lt_of_le (Nat.mod_lt _ (by omega)) hmax)

/-- Settles O27: by the closed form, whose characters are the fill and the digits of bases up to 36. -/
theorem formatterFieldHasNoNull : Obligations.FormatterFieldHasNoNull := by
  intro value width base fill hb hmax hf
  rw [formatterLoopEqualsClosedForm value width base fill hb]
  refine ⟨fieldText_length value width fill base, fun hmem => ?_⟩
  obtain ⟨i, -, hi⟩ := List.mem_map.1 hmem
  exact fieldChar_ne_zero hb hmax hf value width i hi

end Sys2Proof.Machine
end

section
/-! The text operations: the undisturbed run of the string loop, and of a formatted field (R98 to R102). -/

namespace Sys2Proof.Machine

/-! ## The request words (R47) -/

theorem wordA_eq_ofNat (op : BitVec 4) (addr : BitVec 16) :
    wordA op addr = BitVec.ofNat 64 (op.toNat * 2 ^ 60 + addr.toNat) :=
  eq_ofNat_of_toNat_eq (by simp only [wordA, toNat_append_eq_add, BitVec.toNat_ofNat]; omega)

theorem wordN_eq_ofNat (op : BitVec 4) (value : BitVec 32) (width fill base : Byte) :
    wordN op value width fill base = BitVec.ofNat 64
      (op.toNat * 2 ^ 60 + base.toNat * 2 ^ 48 + fill.toNat * 2 ^ 40 + width.toNat * 2 ^ 32 + value.toNat) :=
  eq_ofNat_of_toNat_eq (by simp only [wordN, toNat_append_eq_add, BitVec.toNat_ofNat]; omega)

/-! ## The characters of a text, sent one after the other (R98, R100) -/

theorem State.emits_nil (s : State) : s.Emits [] s.lines [] [] :=
  ⟨rfl, (List.append_nil _).symm, [], rfl, (List.append_nil _).symm⟩

theorem linesAfterText_cons (f : LineFile Level) (c : Byte) (cs : List Byte) :
    linesAfterText f (c :: cs) = linesAfterText (linesAfter true c) cs := by
  cases cs with
  | nil => rfl
  | cons d ds => simp [linesAfterText, List.getLast?_eq_some_getLast]

theorem State.emits_buffer (s : State) (str : List Byte) :
    s.Emits (bufferCode str) (linesAfterText s.lines str) (str.flatMap charXfer) (str.flatMap charSegs) := by
  induction str generalizing s with
  | nil => exact s.emits_nil
  | cons c cs ih =>
    have hfirst := s.emits_character c
    rw [linesAfterText_cons, ← hfirst.lines]
    exact hfirst.append (ih _)

theorem characterCode_length (c : Byte) : (characterCode c).length = 18 := rfl

theorem bufferCode_length (str : List Byte) : (bufferCode str).length = 18 * str.length := by
  simp [bufferCode, List.length_flatMap, characterCode_length, Nat.mul_comm]

/-! ## Undisturbed runs put together (R39) -/

theorem runsTo_zero (s : State) : runsTo 0 s s := ⟨stepN_zero s, fun m hm => absurd hm (Nat.not_lt_zero m)⟩

theorem runsTo.trans {m n : Nat} {s t u : State} (hst : runsTo m s t) (htu : runsTo n t u) : runsTo (m + n) s u := by
  refine ⟨(stepN_add m n hst.1).trans htu.1, fun k hk => ?_⟩
  obtain hlt | hge := Nat.lt_or_ge k m
  · exact hst.2 k hlt
  · obtain ⟨j, rfl⟩ := Nat.exists_eq_add_of_le hge
    rw [stepN_add m j hst.1]
    exact htu.2 j (by omega)

theorem State.running.runsTo_microStep {s : State} (h : s.running) : runsTo 1 s s.microStep := by
  refine ⟨stepN_succ_of_next (State.running_step h), fun m hm => ?_⟩
  obtain rfl := Nat.lt_one_iff.1 hm
  exact ⟨s, rfl, h.2.1⟩

theorem State.running.runsTo_bus {s : State} {ps : List Prim} {m : Micro} {ms : List Micro} (h : s.running)
    (ht : s.todo = busCode ps ++ m :: ms) :
    runsTo ps.length s { s.applyAll ps with upc := s.upc + ps.length, todo := m :: ms } :=
  ⟨stepN_bus ps m ms h ht, fun _ => stepN_bus_busy ps (m :: ms) h ht⟩

/-! ## `LCD.WRNUM` (R100 to R102) -/

/-- An operation without micro-steps ends in the step that accepts it (R102 (a)). -/
theorem sendsFrom_of_start_nil {s : State} {i : Instr} {w : ReqWord} (hexec : exec i s = .next (s.start w [])) :
    sendsFrom s i w 0 s.lines [] [] := by
  refine ⟨_, _, [], hexec, runsTo_zero _, rfl, ?_⟩
  simp [State.start_nil]

/-- A request accepted as the characters of a text sends them. -/
theorem sendsFrom_of_bufferCode {s : State} {i : Instr} {w : ReqWord} {str : List Byte} (hq : s.quiet = true)
    (hr : s.ready = true) (hexec : exec i s = .next (s.start w (busCode (bufferCode str)))) :
    sendsFrom s i w (18 * str.length) (linesAfterText s.lines str) (str.flatMap charXfer) (str.flatMap charSegs) := by
  cases str with
  | nil => exact sendsFrom_of_start_nil hexec
  | cons c cs =>
    have hemits := State.emits_buffer (s.start w (busCode (bufferCode (c :: cs)))) (c :: cs)
    rw [State.start_lines] at hemits
    rw [← bufferCode_length]
    exact sendsFrom_of_emits hq hr (List.cons_ne_nil _ _) hexec hemits

/-- Settles O25: in the admitted domain the operation sends the buffer of the loop, which is the closed form. -/
theorem wrnumSendsTheField : Obligations.WrnumSendsTheField := by
  intro value width fill base s hq hr hv hmin hmax hfill txt
  have hexec := exec_lcdWrnum hr hv width fill base
  rw [if_pos ((baseOk_iff _ _).2 ⟨hmin, hmax⟩), if_pos ((fillOk_iff _ _).2 hfill),
    formatterLoopEqualsClosedForm _ _ _ _ hmin, wordN_eq_ofNat] at hexec
  have hsends := sendsFrom_of_bufferCode hq hr hexec
  rwa [fieldText_length] at hsends

/-! ## The micro-step that reads the text (R98, R99) -/

theorem State.microStep_text {s : State} {a : Nat} {rest : List Micro} (ht : s.todo = .text a :: rest) :
    s.microStep = s.textMicro a rest := by
  simp [State.microStep, ht, State.micro]

theorem State.textMicro_character {s : State} {a : Nat} {ch : Byte} (hread : s.readText a = some ch)
    (hch : ch ≠ s.cfg.term) (rest : List Micro) :
    s.textMicro a rest = { s.countStep with todo := busCode (characterCode ch) ++ .text (a + 1) :: rest } := by
  simp [State.textMicro, hread, hch]

theorem State.textMicro_terminator {s : State} {a : Nat} (hread : s.readText a = some s.cfg.term)
    (rest : List Micro) : s.textMicro a rest = s.countStep.goOn rest := by
  simp [State.textMicro, hread]

theorem State.textMicro_overrun {s : State} {a : Nat} (ha : s.cfg.txtSize ≤ a) (rest : List Micro) :
    s.textMicro a rest = { s with mark := some (.fault (.textOverrun a)) } := by
  simp [State.textMicro, State.readText, Nat.not_lt.2 ha]

/-! ## The loop of `LCD.WRSTR` (R98) -/

/-- One turn of the loop: the read of a character, then its eighteen bus micro-steps. -/
theorem State.running.runsTo_character {s : State} {a : Nat} {ch : Byte} (h : s.running) (ht : s.todo = [.text a])
    (hread : s.readText a = some ch) (hch : ch ≠ s.cfg.term) :
    runsTo 19 s { s.applyAll (characterCode ch) with upc := s.upc + 19, todo := [.text (a + 1)] } := by
  have hstep := h.runsTo_microStep
  rw [State.microStep_text ht, State.textMicro_character hread hch] at hstep
  have hsend := State.running.runsTo_bus
    (s := { s.countStep with todo := busCode (characterCode ch) ++ [.text (a + 1)] })
    (State.running_congr h rfl rfl rfl rfl rfl rfl) rfl
  have hrun := hstep.trans hsend
  rwa [State.countStep, State.applyAll_frame, characterCode_length] at hrun

theorem textAt_cons {s : State} {a : Nat} {c : Byte} {cs : List Byte} (h : textAt s a (c :: cs)) :
    s.readText a = some c ∧ c ≠ s.cfg.term ∧ textAt s (a + 1) cs := by
  obtain ⟨hread, hterm⟩ := h 0 (Nat.zero_lt_succ _)
  refine ⟨hread, hterm, fun j hj => ?_⟩
  have hnext := h (j + 1) (Nat.succ_lt_succ hj)
  rwa [← Nat.add_assoc, Nat.add_right_comm] at hnext

theorem textAt_congr {s t : State} (hcfg : t.cfg = s.cfg) (htxt : t.txt = s.txt) {a : Nat} {str : List Byte}
    (h : textAt s a str) : textAt t a str := by
  simpa only [textAt, State.readText, hcfg, htxt] using h

/-- The loop over a string: nineteen micro-steps for each character, with the effect of sending them all. -/
theorem State.running.runsTo_text {s : State} {a : Nat} {str : List Byte} (h : s.running) (ht : s.todo = [.text a])
    (htext : textAt s a str) :
    runsTo (19 * str.length) s
      { s.applyAll (bufferCode str) with upc := s.upc + 19 * str.length, todo := [.text (a + str.length)] } := by
  induction str generalizing s a with
  | nil =>
    have hsame : { s.applyAll (bufferCode []) with upc := s.upc, todo := [.text a] } = s := by rw [← ht]; rfl
    exact hsame.symm ▸ runsTo_zero s
  | cons c cs ih =>
    obtain ⟨hread, hterm, hrest⟩ := textAt_cons htext
    have hfirst := h.runsTo_character ht hread hterm
    have hcs := ih (s := { s.applyAll (characterCode c) with upc := s.upc + 19, todo := [.text (a + 1)] })
      (State.running_congr h (by simp) (by simp) (by simp) (by simp) (by simp) (by simp)) rfl
      (textAt_congr (by simp) (by simp) hrest)
    have hrun := hfirst.trans hcs
    rw [State.applyAll_frame, ← State.applyAll_append] at hrun
    have hcount : 19 + 19 * cs.length = 19 * (c :: cs).length := by
      rw [List.length_cons]
      omega
    have haddr : a + 1 + cs.length = a + (c :: cs).length := by
      rw [List.length_cons]
      omega
    rwa [haddr, Nat.add_assoc, hcount] at hrun

/-- The operation with request word `w` that has sent the string `str` at `a` and stands before the read behind it: `l`
is what the line trace has gained, and the counter of nibbles is at `nibbles`. -/
def State.afterText (s : State) (w : ReqWord) (a : Nat) (str : List Byte) (l : List TraceEvent) (nibbles : Nat) :
    State :=
  { s with
    lines := linesAfterText s.lines str
    busy := true
    req := w
    upc := 19 * str.length
    todo := [.text (a + str.length)]
    lineTrace := s.lineTrace ++ l
    xferTrace := s.xferTrace ++ str.flatMap charXfer
    nibbles := nibbles }

/-- Undisturbed, an accepted `LCD.WRSTR` sends the string and does the read behind it, whatever is found there. -/
theorem runsTo_readBehindText {s : State} (hq : s.quiet = true) (hr : s.ready = true) (w : ReqWord) {a : Nat}
    {str : List Byte} (htext : textAt s a str) :
    ∃ l nibbles, fits (str.flatMap charSegs) l ∧
      runsTo (19 * str.length + 1) (s.start w [.text a])
        (State.textMicro (a + str.length) [] (s.afterText w a str l nibbles)) := by
  have hclear : s.mark = none := ((State.ready_iff s).1 hr).2
  have hstart : (s.start w [.text a]).running := ⟨hq, rfl, hclear⟩
  have hemits := State.emits_buffer (s.start w [.text a]) str
  obtain ⟨l, hfits, hline⟩ := hemits.lineTrace
  have hloop := hstart.runsTo_text rfl (textAt_congr (s := s) rfl rfl htext)
  have hcount : (s.start w [.text a]).upc + 19 * str.length = 19 * str.length := Nat.zero_add _
  rw [State.applyAll_eq, hemits.lines, hemits.xferTrace, hline, hcount] at hloop
  have hbehind (nibbles : Nat) : (s.afterText w a str l nibbles).running := ⟨hq, rfl, hclear⟩
  exact ⟨l, _, hfits, hloop.trans (hbehind _).runsTo_microStep⟩

theorem exec_lcdWrstr {s : State} (hr : s.ready = true) (addr : BitVec 16) :
    exec (.lcdWrstr addr) s =
      .next (s.start (BitVec.ofNat 64 (5 * 2 ^ 60 + addr.toNat)) [.text addr.toNat]) := by
  have hword : wordA 0x5 addr = BitVec.ofNat 64 (5 * 2 ^ 60 + addr.toNat) := wordA_eq_ofNat 0x5 addr
  rw [← hword]
  exact State.issue_of_ready hr _ _

/-- Settles O23: the micro-step after the string reads the terminator and ends the operation. -/
theorem wrstrStreamsTheString : Obligations.WrstrStreamsTheString := by
  intro addr str s hq hr htext hterm
  obtain ⟨l, nibbles, hfits, hrun⟩ := runsTo_readBehindText hq hr (BitVec.ofNat 64 (5 * 2 ^ 60 + addr.toNat)) htext
  rw [State.textMicro_terminator (s := s.afterText _ _ str l nibbles) hterm] at hrun
  exact ⟨_, _, l, exec_lcdWrstr hr addr, hrun, hfits, rfl⟩

/-- An undisturbed step of a block that has a fault recorded is that fault (R149). -/
theorem step_of_quiet_fault {s : State} {f : Fault} (h : s.quiet = true) (hm : s.mark = some (.fault f)) :
    step s = .fault f := by
  obtain ⟨hscript, hfast, hslow, hisr⟩ := (State.quiet_iff s).1 h
  have hrefusal : s.refusal = none := by simp [State.refusal, hm]
  rw [step_of_script_end hrefusal hscript]
  simp [State.ownMove, State.fastTurn, State.mainMove, State.mainTurn, Mark.stop, hfast, hslow, hisr, hm]

/-- Settles O24: the micro-step after the string reads past the end and records the fault, and the next step is
that fault. -/
theorem wrstrOverrunsAtTheEnd : Obligations.WrstrOverrunsAtTheEnd := by
  intro addr str s hq hr htext hend
  obtain ⟨l, nibbles, hfits, hrun⟩ := runsTo_readBehindText hq hr (BitVec.ofNat 64 (5 * 2 ^ 60 + addr.toNat)) htext
  rw [State.textMicro_overrun (s := s.afterText _ _ str l nibbles) hend] at hrun
  exact ⟨_, _, l, exec_lcdWrstr hr addr, hrun.1, hfits, rfl, step_of_quiet_fault hq rfl⟩

end Sys2Proof.Machine
end

section
/-! `BTN.RDCNT` and `BTN.PRESSED` (R111 to R116): the reads of a counter, and the wait for it to be 0. -/

namespace Sys2Proof.Machine

/-! ## The micro-steps that read a counter (R111, R113, R116) -/

theorem State.microStep_load {s : State} {b : Button} {rest : List Micro} (ht : s.todo = .load b :: rest) :
    s.microStep = { s with upc := s.upc + 1, todo := [], busy := false, result := s.cnt.get b } := by
  rw [State.microStep, ht]
  rfl

theorem State.microStep_test {s : State} {b : Button} {rest : List Micro} (ht : s.todo = .test b :: rest) :
    s.microStep = if s.cfg.shortTh ≤ (s.cnt.get b).toNat then { s with upc := s.upc + 1, todo := .wait b :: rest }
      else { s with upc := s.upc + 1, todo := [], busy := false, result := 0 } := by
  simp only [State.microStep, ht, State.micro, State.short, decide_eq_true_eq]
  rfl

theorem State.microStep_wait_of_zero {s : State} {b : Button} {rest : List Micro} (ht : s.todo = .wait b :: rest)
    (hc : s.cnt.get b = 0) :
    s.microStep = { s with upc := s.upc + 1, result := 1, busy := false, todo := [] } := by
  simp [State.microStep, ht, State.micro, State.readCnt, hc, State.countStep, State.endOp]

theorem State.microStep_wait_of_ne_zero {s : State} {b : Button} {rest : List Micro} (ht : s.todo = .wait b :: rest)
    (hc : s.cnt.get b ≠ 0) : s.microStep = { s with upc := s.upc + 1 } := by
  have hread : s.readCnt b ≠ 0#8 := hc
  simp [State.microStep, ht, State.micro, hread, State.countStep]

/-! ## The requests (R47, R111, R116) -/

theorem wordK_eq_ofNat (op : BitVec 4) (k : BitVec 2) :
    wordK op k = BitVec.ofNat 64 (op.toNat * 2 ^ 60 + k.toNat) :=
  eq_ofNat_of_toNat_eq (by simp only [wordK, toNat_append_eq_add, BitVec.toNat_ofNat]; omega)

theorem issueButton_of_ready {s : State} {k : BitVec 2} {b : Button} (hr : s.ready = true) (hk : buttonOf k = some b)
    (w : ReqWord) (ops : Button → List Micro) : issueButton w k ops s = .next (s.start w (ops b)) := by
  rw [issueButton, hk]
  exact State.issue_of_ready hr w (ops b)

theorem exec_btnRdcnt {s : State} {k : BitVec 2} {b : Button} (hr : s.ready = true) (hk : buttonOf k = some b) :
    exec (.btnRdcnt k) s = .next (s.start (BitVec.ofNat 64 (9 * 2 ^ 60 + k.toNat)) [.load b]) :=
  (issueButton_of_ready hr hk _ _).trans (by rw [wordK_eq_ofNat]; rfl)

theorem exec_btnPressed {s : State} {k : BitVec 2} {b : Button} (hr : s.ready = true) (hk : buttonOf k = some b) :
    exec (.btnPressed k) s = .next (s.start (BitVec.ofNat 64 (8 * 2 ^ 60 + k.toNat)) [.test b]) :=
  (issueButton_of_ready hr hk _ _).trans (by rw [wordK_eq_ofNat]; rfl)

/-- Undisturbed, a started operation is at work on its first micro-step. -/
theorem State.running_start_cons {s : State} (hq : s.quiet = true) (hr : s.ready = true) (w : ReqWord) (m : Micro)
    (ms : List Micro) : (s.start w (m :: ms)).running :=
  ⟨hq, rfl, ((State.ready_iff s).1 hr).2⟩

/-- Settles O31: the operation is its one read. -/
theorem rdcntReturnsTheCounter : Obligations.RdcntReturnsTheCounter := by
  intro s hq hr
  refine ⟨fun k c hk => ?_, State.refuseReserved_of_idle ((State.ready_iff s).1 hr).1 _⟩
  obtain ⟨b, hb, rfl⟩ : ∃ b, buttonOf k = some b ∧ c = s.cnt.get b := by
    obtain ⟨rfl, rfl⟩ | ⟨rfl, rfl⟩ | ⟨rfl, rfl⟩ := hk
    · exact ⟨.up, rfl, rfl⟩
    · exact ⟨.enter, rfl, rfl⟩
    · exact ⟨.down, rfl, rfl⟩
  have hrun := (State.running_start_cons hq hr (BitVec.ofNat 64 (9 * 2 ^ 60 + k.toNat)) (.load b) []).runsTo_microStep
  rw [State.microStep_load rfl] at hrun
  exact ⟨_, _, exec_btnRdcnt hr hb, hrun, rfl⟩

/-- Settles O32: the first micro-step is the test, on either side of the threshold. -/
theorem pressedTestsTheThreshold : Obligations.PressedTestsTheThreshold := by
  intro s hq hr k b c hk
  obtain ⟨hb, rfl⟩ : buttonOf k = some b ∧ c = s.cnt.get b := by
    obtain ⟨rfl, rfl, rfl⟩ | ⟨rfl, rfl, rfl⟩ | ⟨rfl, rfl, rfl⟩ := hk <;> exact ⟨rfl, rfl⟩
  refine ⟨_, _, exec_btnPressed hr hb, rfl, State.running_step (State.running_start_cons hq hr _ _ _), ?_⟩
  rw [State.microStep_test rfl]
  by_cases hth : s.cfg.shortTh ≤ (s.cnt.get b).toNat <;> simp [State.start_cons, hth]

/-! ## The end of the wait (R113, R118) -/

/-- Settles O33: the step is the wait's read. -/
theorem waitEndsOnZeroOnly : Obligations.WaitEndsOnZeroOnly := by
  intro s b rest hq hb hm ht
  rw [step_of_quiet_busy hq hb hm]
  exact ⟨fun hc => congrArg _ (State.microStep_wait_of_zero ht hc),
    fun hc => congrArg _ (State.microStep_wait_of_ne_zero ht hc)⟩

/-- Settles O36: of the changes a step can make, only a micro-step and a reset end the operation; the reset's result is
0, and a read of the wait that finds another value than 0 goes on. -/
theorem pressedReportsAfterReadingZero : Obligations.PressedReportsAfterReadingZero := by
  intro s t b rest ht hb h hidle hres
  obtain ⟨left, hc⟩ := step_change h
  cases hc with
  | micro =>
    by_contra hne
    rw [State.microStep_wait_of_ne_zero (s := { s with script := left }) ht hne] at hidle
    exact Bool.false_ne_true (hidle.symm.trans hb)
  | rst => cases hres
  | start _ _ _ hr => exact absurd (hb.symm.trans ((State.ready_iff s).1 hr).1) Bool.noConfusion
  | _ => simp [hb] at hidle

/-- The fast handler's run, at the script's end (R126 to R128). -/
theorem step_of_fastTurn {s : State} (hr : s.refusal = none) (hs : s.script = []) (hi : s.inIsr = false)
    (hf : s.fastTurn = true) : step s =
      .next ((State.sampleButtons s.inp.up s.inp.enter s.inp.down) (s.enterHandler .fast)).leaveHandler := by
  simp [step_of_script_end hr hs, State.ownMove, hi, hf, execTickFast, State.runHandler, State.readIn, PerButton.get]

/-- Settles O35: the first step is the handler's, which clears the counter, and the second is the wait's read of it. -/
theorem releasedSampleEndsTheWait : Obligations.ReleasedSampleEndsTheWait := by
  intro s b rest hs hf hp hi hb hm ht hreleased
  have hturn : s.fastTurn = true := by simp [State.fastTurn, hf, hp]
  have hhandler := step_of_fastTurn (State.refusal_of_clear hm) hs hi hturn
  generalize hv : State.leaveHandler _ = v at hhandler
  have hzero : v.cnt.get b = 0 := by
    rw [← hv, State.leaveHandler_cnt, State.sampleButtons_cnt_get, hreleased]
    rfl
  have hread := (waitEndsOnZeroOnly v b rest (by simp [← hv, State.quiet, hs, hp]) (by simp [← hv, hb])
    (by simp [← hv, hm]) (by simp [← hv, ht])).1 hzero
  exact ⟨_, (stepN_succ_of_next hhandler).trans (stepN_succ_of_next hread), rfl, rfl, hzero⟩

end Sys2Proof.Machine
end

section
/-! The wait of `BTN.PRESSED` while its button stays pressed (R115, R168). -/

namespace Sys2Proof.Machine

/-! ## Runs that go on -/

/-- What every step keeps and goes on from holds after every number of steps. -/
theorem stepN_of_invariant {P : State → Prop} (hstep : ∀ s, P s → ∃ t, step s = .next t ∧ P t) (n : Nat)
    {s : State} (h : P s) : ∃ u, stepN n s = .next u ∧ P u := by
  induction n generalizing s with
  | zero => exact ⟨s, stepN_zero s, h⟩
  | succ n ih =>
    obtain ⟨t, hst, ht⟩ := hstep s h
    rw [stepN_succ_of_next hst]
    exact ih ht

/-- With nothing recorded the block's own step goes on. -/
theorem State.ownMove_of_clear {s : State} (hm : s.mark = none) : ∃ t, s.ownMove = .next t := by
  unfold State.ownMove State.mainMove
  rw [State.mainTurn_of_clear hm]
  split_ifs <;> exact ⟨_, rfl⟩

theorem State.clearDue_of_clear {s : State} (hm : s.mark = none) : ∃ t, s.clearDue = .next t := by
  cases hb : s.busy with
  | false => exact ⟨_, State.clearDue_of_idle hm hb⟩
  | true => exact ⟨_, State.clearDue_of_busy hm hb⟩

/-- With nothing recorded, a step that is no request goes on. -/
theorem step_of_onlyInterrupts {s : State} (hm : s.mark = none) (hs : s.script.all Event.onlyInterrupts = true) :
    ∃ t, step s = .next t := by
  have hr : s.refusal = none := State.refusal_of_clear hm
  cases hscript : s.script with
  | nil =>
    rw [step_of_script_end hr hscript]
    exact State.ownMove_of_clear hm
  | cons ev rest =>
    rw [step_of_event hr hscript]
    cases ev with
    | go => exact State.ownMove_of_clear (s := { s with script := rest }) hm
    | tick src => exact ⟨_, rfl⟩
    | levels a b c => exact ⟨_, rfl⟩
    | clearDue => exact State.clearDue_of_clear (s := { s with script := rest }) hm
    | request w | rst => simp [hscript, Event.onlyInterrupts] at hs

/-! ## What a step does to the input levels and to the counter of a pressed button (R12, R127) -/

/-- Only the environment writes the input levels (R12). -/
theorem step_inp {s t : State} (h : step s = .next t) :
    t.inp = s.inp ∨ ∃ a b c, s.script.head? = some (.levels a b c) ∧ t.inp = ⟨a, b, c⟩ := by
  obtain ⟨rest, hc⟩ := step_change h
  cases hc with
  | levels a b c hs => exact .inr ⟨a, b, c, by rw [hs]; rfl, rfl⟩
  | micro => exact .inl (State.microStep_outside _).2.2.2.2.1
  | start w ops => exact .inl (by rw [State.start_frame])
  | _ => exact .inl (by simp)

theorem succ_ne_zero_of_ne_max {c : Byte} (h : c ≠ 255) : c + 1 ≠ 0 := by
  bv_omega

/-! ## The wait goes on -/

/-- The block waits on the counter of button `b`, which is pressed and stays so, and the counter is not 0. -/
structure State.Hangs (b : Button) (rest : List Micro) (s : State) : Prop where
  busy : s.busy = true
  mark : s.mark = none
  todo : s.todo = .wait b :: rest
  cnt : s.cnt.get b ≠ 0
  inp : s.inp.get b = false
  script : s.script.all (Event.keepsPressed b) = true

section
variable {b : Button} {rest : List Micro} {s t : State}

theorem Event.onlyInterrupts_of_keepsPressed {ev : Event} (h : ev.keepsPressed b = true) :
    ev.onlyInterrupts = true := by
  cases ev with
  | go | tick | levels | clearDue => rfl
  | request | rst => cases h

theorem State.Hangs.head (hs : s.Hangs b rest) {ev : Event} (hev : s.script.head? = some ev) :
    ev.keepsPressed b = true :=
  List.all_eq_true.1 hs.script ev (List.mem_of_mem_head? hev)

/-- A counter that is not 0 stays so: the samples of a pressed button only count up to 255 (R127). -/
theorem State.Hangs.step_cnt (hs : s.Hangs b rest) (h : Machine.step s = .next t) : t.cnt.get b ≠ 0 := by
  obtain hsame | ⟨-, -, hsample⟩ | ⟨hrst, -⟩ := onlyTheSamplerWritesCounters s t h
  · rw [hsame]
    exact hs.cnt
  · rw [hsample b, hs.inp, if_neg Bool.false_ne_true]
    split
    · decide
    · next hmax => exact succ_ne_zero_of_ne_max hmax
  · cases hs.head hrst

theorem State.Hangs.step_inp (hs : s.Hangs b rest) (h : Machine.step s = .next t) : t.inp.get b = false := by
  obtain hsame | ⟨x, y, z, hlevels, hinp⟩ := Machine.step_inp h
  · rw [hsame]
    exact hs.inp
  · rw [hinp]
    exact beq_iff_eq.1 (hs.head hlevels)

/-- The main context's side keeps still but for the count of the wait's reads, none of which finds 0 (R113). -/
theorem State.Hangs.step_main (hs : s.Hangs b rest) (h : Machine.step s = .next t) :
    t.busy = true ∧ t.mark = none ∧ t.todo = .wait b :: rest := by
  have hview : t.mainView = s.mainView ∨ t.mainView = s.microStep.mainView := by
    refine or_iff_not_imp_left.2 fun hne => ?_
    obtain ⟨w, hw⟩ | hrst | ⟨-, hmicro, -⟩ := handlersLeaveTheMainContextAlone s t h hne
    · cases hs.head hw
    · cases hs.head hrst
    · exact hmicro
  rw [State.microStep_wait_of_ne_zero hs.todo hs.cnt] at hview
  have hfields : t.busy = s.busy ∧ t.mark = s.mark ∧ t.todo = s.todo := by
    obtain hv | hv := hview <;>
      exact ⟨congrArg MainView.busy hv, congrArg MainView.mark hv, congrArg MainView.todo hv⟩
  obtain ⟨hbusy, hmark, htodo⟩ := hfields
  exact ⟨hbusy.trans hs.busy, hmark.trans hs.mark, htodo.trans hs.todo⟩

theorem State.Hangs.step (hs : s.Hangs b rest) : ∃ t, Machine.step s = .next t ∧ t.Hangs b rest := by
  have honly : s.script.all Event.onlyInterrupts = true :=
    List.all_eq_true.2 fun ev hev => Event.onlyInterrupts_of_keepsPressed (List.all_eq_true.1 hs.script ev hev)
  obtain ⟨t, h⟩ := step_of_onlyInterrupts hs.mark honly
  obtain ⟨hbusy, hmark, htodo⟩ := hs.step_main h
  have hscript : t.script.all (Event.keepsPressed b) = true :=
    List.all_eq_true.2 fun ev hev => List.all_eq_true.1 hs.script ev ((step_script_suffix h).subset hev)
  exact ⟨t, h, hbusy, hmark, htodo, hs.step_cnt h, hs.step_inp h, hscript⟩

/-- The host is stalled, so it does not clear its flag (R115, R139). -/
theorem State.Hangs.step_convDue (hs : s.Hangs b rest) (hdue : s.convDue = true) (h : Machine.step s = .next t) :
    t.convDue = true := by
  by_contra hne
  obtain ⟨-, -, hset⟩ | ⟨-, -, hidle, -⟩ | hrst :=
    convDueWriters s t h fun hsame => hne (hsame.trans hdue)
  · exact hne hset
  · exact Bool.false_ne_true (hidle.symm.trans hs.busy)
  · cases hs.head hrst

end

/-- Settles O34: every step from a hanging wait goes on to a hanging wait. -/
theorem heldButtonHangsTheOperation : Obligations.HeldButtonHangsTheOperation := by
  intro n s b rest hb hm ht hc hi hs
  have hangs : s.Hangs b rest := ⟨hb, hm, ht, hc, hi, hs⟩
  obtain ⟨u, hrun, hu⟩ := stepN_of_invariant (fun _ => State.Hangs.step) n hangs
  exact ⟨u, hrun, hu.busy, hu.mark, hu.todo⟩

/-- Settles O57: every step from a hanging wait goes on to a hanging wait, and leaves the flag set. -/
theorem heldButtonStallsTheConversion : Obligations.HeldButtonStallsTheConversion := by
  intro n s b rest hb hm ht hc hi hs hdue
  have hstep (v : State) (hv : v.Hangs b rest ∧ v.convDue = true) :
      ∃ t, step v = .next t ∧ t.Hangs b rest ∧ t.convDue = true := by
    obtain ⟨t, h, hangs⟩ := hv.1.step
    exact ⟨t, h, hangs, hv.1.step_convDue hv.2 h⟩
  obtain ⟨u, hrun, hu, hdueu⟩ := stepN_of_invariant hstep n ⟨⟨hb, hm, ht, hc, hi, hs⟩, hdue⟩
  exact ⟨u, hrun, hu.busy, hdueu⟩

end Sys2Proof.Machine
end

section
/-! The interrupt handlers (R127 to R136): what a run of each does, and which step takes a pending tick. -/

namespace Sys2Proof.Machine

/-! ## A tick, taken and while a handler runs (R127, R130, R131) -/

theorem State.runHandler_of_free {s : State} (hi : s.inIsr = false) (src : TickSource) (body : State → State) :
    s.runHandler src body = (body (s.enterHandler src)).leaveHandler := by
  simp [State.runHandler, hi]

theorem State.runHandler_of_running {s : State} (hi : s.inIsr = true) (src : TickSource) (body : State → State) :
    s.runHandler src body = s.raiseTick src := by
  simp [State.runHandler, hi]

/-- The return leaves `in_isr` as it was at the entry, so a run of the fast handler writes the counters and its latch. -/
theorem exec_tickFast_of_free {s : State} (hi : s.inIsr = false) (a b c : Level) : exec (.tickFast a b c) s =
    .next { s with cnt := (State.sampleButtons a b c s).cnt, pendFast := false } := by
  show Host.Outcome.next (s.runHandler .fast _) = _
  rw [State.runHandler_of_free hi, State.leaveHandler]
  conv_lhs => rw [← hi]
  rfl

/-- A run of the slow handler writes the flag and its latch. -/
theorem exec_tickSlow_of_free {s : State} (hi : s.inIsr = false) :
    exec .tickSlow s = .next { s with convDue := true, pendSlow := false } := by
  show Host.Outcome.next (s.runHandler .slow _) = _
  rw [State.runHandler_of_free hi, State.leaveHandler]
  conv_lhs => rw [← hi]
  rfl

/-- Settles O38: the handler's run, each counter by its own sample. -/
theorem tickFastSamplesTheButtons : Obligations.TickFastSamplesTheButtons := by
  intro a b c s hi
  simp only [← sampleCnt_eq]
  exact exec_tickFast_of_free hi a b c

/-- Settles O39: the handler's run. -/
theorem tickSlowSetsConvDue : Obligations.TickSlowSetsConvDue := fun _ hi => exec_tickSlow_of_free hi

/-- Settles O40: while a handler runs, taking a tick is raising it. -/
theorem ticksDoNotNest : Obligations.TicksDoNotNest := fun _ hi =>
  ⟨fun _ _ _ => congrArg _ (State.runHandler_of_running hi .fast _), congrArg _ (State.runHandler_of_running hi .slow _)⟩

/-! ## The arrival of a tick (R129) -/

theorem State.refusal_congr {s t : State} (h : t.mark = s.mark) : t.refusal = s.refusal := by
  rw [State.refusal, State.refusal, h]

theorem step_of_tick_event {s : State} (hr : s.refusal = none) {src : TickSource} {rest : List Event}
    (hs : s.script = .tick src :: rest) : step s = .next (State.raiseTick src { s with script := rest }) :=
  step_of_event hr hs

theorem State.raiseTick_withScript (s : State) (src : TickSource) (rest : List Event) :
    { s.raiseTick src with script := rest } = State.raiseTick src { s with script := rest } := by
  cases src <;> rfl

theorem State.raiseTick_raiseTick (s : State) (src : TickSource) :
    (s.raiseTick src).raiseTick src = s.raiseTick src := by
  cases src <;> rfl

/-- Two arrivals from one source leave what one leaves. -/
theorem stepN_of_two_ticks {s : State} (hr : s.refusal = none) {src : TickSource} {rest : List Event}
    (hs : s.script = .tick src :: .tick src :: rest) :
    stepN 2 s = .next (State.raiseTick src { s with script := rest }) := by
  have hr' : (State.raiseTick src { s with script := .tick src :: rest }).refusal = none :=
    (State.refusal_congr (State.raiseTick_mark _ src)).trans hr
  have hsecond := step_of_tick_event hr' (State.raiseTick_script _ src)
  rw [State.raiseTick_withScript, State.raiseTick_raiseTick] at hsecond
  exact (stepN_succ_of_next (step_of_tick_event hr hs)).trans (stepN_succ_of_next hsecond)

/-- Settles O41: for either source. -/
theorem ticksMergeIntoOneLatch : Obligations.TicksMergeIntoOneLatch := fun _ _ hr =>
  ⟨stepN_of_two_ticks hr, stepN_of_two_ticks hr⟩

/-! ## The step that takes a pending tick (R126, R128, R132) -/

theorem step_of_ownTurn {s : State} {rest : List Event} (hr : s.refusal = none) (ho : s.OwnTurn rest) :
    step s = State.ownMove { s with script := rest } := by
  obtain ⟨hs, rfl⟩ | hs := ho
  · rw [step_of_script_end hr hs, ← hs]
  · exact step_of_event hr hs

theorem State.ownMove_of_fastTurn {s : State} (hi : s.inIsr = false) (hf : s.fastTurn = true) :
    s.ownMove = exec (.tickFast s.inp.up s.inp.enter s.inp.down) s := by
  simp only [State.ownMove, hi, hf, Bool.false_eq_true, if_true, if_false]
  rfl

theorem State.ownMove_of_slowTurn {s : State} (hi : s.inIsr = false) (hf : s.fastTurn = false)
    (hp : s.pendSlow = true) : s.ownMove = exec .tickSlow s := by
  simp only [State.ownMove, hi, hf, hp, Bool.false_eq_true, if_true, if_false]
  rfl

theorem State.fastTurn_of_pendSlow_clear {s : State} (hp : s.pendSlow = false) : s.fastTurn = s.pendFast := by
  simp [State.fastTurn, hp]

theorem State.fastTurn_of_pendFast_clear {s : State} (hf : s.pendFast = false) : s.fastTurn = false := by
  simp [State.fastTurn, hf]

theorem State.fastTurn_of_both {s : State} (hf : s.pendFast = true) (hp : s.pendSlow = true) :
    s.fastTurn = !s.cfg.slowFirst := by
  simp [State.fastTurn, hf, hp]

/-- Settles O42: the step is the block's own, and the one pending tick has the turn. -/
theorem pendingTickIsTakenNext : Obligations.PendingTickIsTakenNext := by
  intro s u hr hi hu
  obtain ⟨rest, ho, rfl⟩ : ∃ rest, s.OwnTurn rest ∧ u = { s with script := rest } := by
    obtain ⟨hs, rfl⟩ | ⟨rest, hs, rfl⟩ := hu
    · exact ⟨[], .inl ⟨hs, rfl⟩, by rw [← hs]⟩
    · exact ⟨rest, .inr hs, rfl⟩
  rw [step_of_ownTurn hr ho]
  exact ⟨fun hf hp => State.ownMove_of_fastTurn hi ((State.fastTurn_of_pendSlow_clear hp).trans hf),
    fun hf hp => State.ownMove_of_slowTurn hi (State.fastTurn_of_pendFast_clear hf) hp⟩

/-- At the script's end the fast handler runs when it has the turn. -/
theorem step_runs_fast_handler {s : State} (hr : s.refusal = none) (hs : s.script = []) (hi : s.inIsr = false)
    (hf : s.fastTurn = true) : step s =
      .next { s with cnt := (State.sampleButtons s.inp.up s.inp.enter s.inp.down s).cnt, pendFast := false } := by
  rw [step_of_script_end hr hs, State.ownMove_of_fastTurn hi hf, exec_tickFast_of_free hi]

/-- At the script's end the slow handler runs when the fast one does not have the turn. -/
theorem step_runs_slow_handler {s : State} (hr : s.refusal = none) (hs : s.script = []) (hi : s.inIsr = false)
    (hf : s.fastTurn = false) (hp : s.pendSlow = true) :
    step s = .next { s with convDue := true, pendSlow := false } := by
  rw [step_of_script_end hr hs, State.ownMove_of_slowTurn hi hf hp, exec_tickSlow_of_free hi]

/-- Settles O43: the first handler leaves the other tick pending alone, and the two write different fields. -/
theorem bothTicksEitherOrder : Obligations.BothTicksEitherOrder := by
  intro s hr hs hi hf hp
  have hturn := State.fastTurn_of_both hf hp
  refine ⟨_, _, exec_tickFast_of_free hi _ _ _, exec_tickSlow_of_free hi, ?_⟩
  cases hfirst : s.cfg.slowFirst with
  | false =>
    rw [hfirst] at hturn
    exact (stepN_succ_of_next (step_runs_fast_handler hr hs hi hturn)).trans
      (stepN_succ_of_next (step_runs_slow_handler hr hs hi (State.fastTurn_of_pendFast_clear rfl) hp))
  | true =>
    rw [hfirst] at hturn
    exact (stepN_succ_of_next (step_runs_slow_handler hr hs hi hturn hp)).trans
      (stepN_succ_of_next (step_runs_fast_handler hr hs hi ((State.fastTurn_of_pendSlow_clear rfl).trans hf)))

/-! ## After a fault (R149) -/

theorem State.refusal_of_fault {s : State} {f : Fault} (hm : s.mark = some (.fault f)) : s.refusal = none := by
  simp [State.refusal, hm]

theorem State.mainTurn_of_fault {s : State} {f : Fault} (hm : s.mark = some (.fault f))
    (k : Host.Outcome State Fault Refusal) : s.mainTurn k = .fault f := by
  simp [State.mainTurn, hm, Mark.stop]

/-- Settles O55: the host's events are turns of the main context, as is an undisturbed step; a pending fast tick is taken
before it. -/
theorem afterAFaultOnlyHandlersRun : Obligations.AfterAFaultOnlyHandlersRun := by
  intro s f hm
  have hr := State.refusal_of_fault hm
  refine ⟨fun rest hs => ?_, fun hs hi hp => ⟨fun hf => ?_, fun hf => ?_⟩⟩
  · obtain hs | ⟨w, hs⟩ := hs
    all_goals rw [step_of_event hr hs]
    · exact State.mainTurn_of_fault (s := { s with script := rest }) hm _
    · exact State.mainTurn_of_fault (s := { s with script := rest }) hm _
  · exact step_of_quiet_fault ((State.quiet_iff s).2 ⟨hs, hf, hp, hi⟩) hm
  · refine ⟨_, step_runs_fast_handler hr hs hi ((State.fastTurn_of_pendSlow_clear hp).trans hf), hm, rfl, fun b => ?_⟩
    exact (State.sampleButtons_cnt_get s s.inp b).trans (sampleCnt_eq _ _)

end Sys2Proof.Machine
end

section
/-! The order of the checks on a request (R148), and that no instruction is a fault by itself (R146). -/

namespace Sys2Proof.Machine

/-! ## While busy every request is refused as such (R140) -/

theorem State.refuseReserved_of_busy {s : State} (hb : s.busy = true) (w : ReqWord) :
    s.refuseReserved w = .refused .issueWhileBusy := by
  simp [State.refuseReserved, hb]

theorem issueButton_of_busy {s : State} (hb : s.busy = true) (w : ReqWord) (k : BitVec 2) (ops : Button → List Micro) :
    issueButton w k ops s = .refused .issueWhileBusy := by
  unfold issueButton
  split
  · exact State.gate_of_busy hb _
  · exact State.refuseReserved_of_busy hb w

theorem exec_of_busy {i : Instr} (hi : isRequest i = true ∨ isReserved i = true) {s : State} (hb : s.busy = true) :
    exec i s = .refused .issueWhileBusy := by
  cases i with
  | lcdInit | lcdCmd | lcdChr | lcdGotoxy | lcdWrstr | lcdWrnum => exact State.gate_of_busy hb _
  | cmdClear | cmdHome | cmdEntry | cmdDispOff | cmdDispOn | cmdCursorOn | cmdCursorBlink =>
    exact State.gate_of_busy hb _
  | cmdShiftCurL | cmdShiftCurR | cmdShiftDspL | cmdShiftDspR | cmdFuncset | cmdSetCgram | cmdSetDdram =>
    exact State.gate_of_busy hb _
  | btnPressed | btnRdcnt => exact issueButton_of_busy hb _ _ _
  | reserved0 | reserved7 | reservedA | reservedB | reservedC | reservedD | reservedE | reservedF =>
    exact State.refuseReserved_of_busy hb _
  | tickFast | tickSlow | rst | lineSet | lineClr | lineTgl | lineRd | sendNibble | sendByte =>
    exact hi.elim nofun nofun

theorem State.request_of_busy {s : State} (hb : s.busy = true) (w : ReqWord) :
    s.request w = .refused .issueWhileBusy := by
  cases hd : decodeRequest w with
  | error e => simpa [State.request, hd] using State.refuseReserved_of_busy hb w
  | ok i =>
    rw [State.request_of_decode hd]
    exact exec_of_busy (decodeRequest_kind hd) hb

/-! ## No instruction is a fault by itself -/

theorem State.refuseReserved_ne_fault (s : State) (w : ReqWord) (f : Fault) : s.refuseReserved w ≠ .fault f := by
  unfold State.refuseReserved
  split <;> exact nofun

section
variable {s : State} (hm : s.mark = none)

include hm

theorem State.gate_ne_fault {k : Host.Outcome State Fault Refusal} {f : Fault} (hk : k ≠ .fault f) :
    s.gate k ≠ .fault f := by
  rw [State.gate, State.mainTurn_of_clear hm]
  split
  · exact nofun
  · exact hk

theorem State.issue_ne_fault (w : ReqWord) (ops : List Micro) (f : Fault) : s.issue w ops ≠ .fault f :=
  State.gate_ne_fault hm nofun

theorem issueButton_ne_fault (w : ReqWord) (k : BitVec 2) (ops : Button → List Micro) (f : Fault) :
    issueButton w k ops s ≠ .fault f := by
  unfold issueButton
  split
  · exact State.issue_ne_fault hm w _ f
  · exact s.refuseReserved_ne_fault w f

/-- With nothing recorded, an instruction starts an operation, acts at once or is refused. -/
theorem exec_ne_fault (i : Instr) (f : Fault) : exec i s ≠ .fault f := by
  cases i with
  | lcdInit | lcdCmd | lcdChr | lcdWrstr => exact State.issue_ne_fault hm _ _ f
  | cmdClear | cmdHome | cmdEntry | cmdDispOff | cmdDispOn | cmdCursorOn | cmdCursorBlink =>
    exact State.issue_ne_fault hm _ _ f
  | cmdShiftCurL | cmdShiftCurR | cmdShiftDspL | cmdShiftDspR | cmdFuncset | cmdSetCgram | cmdSetDdram =>
    exact State.issue_ne_fault hm _ _ f
  | lcdGotoxy => exact State.gate_ne_fault hm (by split <;> exact nofun)
  | lcdWrnum => exact State.gate_ne_fault hm (by split_ifs <;> exact nofun)
  | btnPressed | btnRdcnt => exact issueButton_ne_fault hm _ _ _ f
  | reserved0 | reserved7 | reservedA | reservedB | reservedC | reservedD | reservedE | reservedF =>
    exact s.refuseReserved_ne_fault _ f
  | tickFast | tickSlow | rst | lineSet | lineClr | lineTgl | lineRd | sendNibble | sendByte => exact nofun

end

/-! ## The order of the checks -/

theorem exec_lcdWrnum_of_wide {s : State} {value : BitVec 32} (hr : s.ready = true)
    (hv : 2 ^ s.cfg.valueBits ≤ value.toNat) (width fill base : Byte) :
    exec (.lcdWrnum value width fill base) s = .refused (.reservedRequest (wordN 0x6 value width fill base)) :=
  exec_of_hasReservedWord hr (by simpa [hasReservedWord, valueOk] using hv) rfl

/-- Settles O6: a busy block refuses every word, a ready one a reserved word, and each operation's own checks come in the
order they are written. -/
theorem orderOfRefusals : Obligations.OrderOfRefusals := by
  refine ⟨fun s w rest hs hb hm => ?busy, fun s w rest hs hb hm hw => (reservedWordIsRefused s w rest hs hb hm hw).1,
    fun s col row hr ha => ?column, fun s value width fill base hr hv => ?value,
    fun s value width fill base hr hv hout => ?base, fun s value width fill base hr hv hmin hmax hf hw => ?fill,
    fun i s f hm => exec_ne_fault hm i f⟩
  case busy =>
    have hreq : State.request w { s with script := rest } = .refused .issueWhileBusy :=
      State.request_of_busy (s := { s with script := rest }) hb w
    rw [step_of_request_event hs hm, hreq]
    rfl
  case column =>
    rw [← rowBase_eq_rowStart] at ha
    exact execLcdGotoxy_of_outside hr (Nat.not_le.2 ha)
  case value =>
    rw [exec_lcdWrnum_of_wide hr hv, wordN_eq_ofNat]
    rfl
  case base =>
    have hbase : ¬ baseOk s.cfg base = true := by rw [baseOk_iff]; omega
    rw [exec_lcdWrnum hr hv, if_neg hbase]
  case fill =>
    have hfill : ¬ fillOk width fill = true := by
      rw [fillOk_iff]
      exact not_or.2 ⟨not_not.2 hf, hw⟩
    rw [exec_lcdWrnum hr hv, if_pos ((baseOk_iff _ _).2 ⟨hmin, hmax⟩), if_neg hfill]

end Sys2Proof.Machine
end

section
/-! The least durations of the bus and display operations (R4, R180). -/

namespace Sys2Proof.Machine

/-! ## The delays of a line trace and of the pieces it fits -/

/-- What a piece of a line trace takes: of a nibble, the two holds of its pulse on E (R77). -/
def Seg.duration (c : Config) : Seg → Nat
  | .write _ _ => 0
  | .delay d => c.duration d
  | .nibble _ => c.tEH + c.tEL

/-- What the pieces of a line trace take together. -/
def segsDuration (c : Config) (segs : List Seg) : Nat := (segs.map (Seg.duration c)).sum

theorem leastDuration_append (c : Config) (l m : List TraceEvent) :
    leastDuration c (l ++ m) = leastDuration c l + leastDuration c m := by
  simp [leastDuration]

theorem leastDuration_write_cons (c : Config) (x : Line) (v : Level) (l : List TraceEvent) :
    leastDuration c (.write x v :: l) = leastDuration c l := by
  simp [leastDuration]

theorem leastDuration_delay_cons (c : Config) (d : DelayName) (l : List TraceEvent) :
    leastDuration c (.delay d :: l) = c.duration d + leastDuration c l := by
  simp [leastDuration]

/-- The data writes of a nibble take no time, in whatever order they come (R76, R77). -/
theorem leastDuration_nibbleTrace (c : Config) (o : Equiv.Perm (Fin 4)) (n : Nibble) :
    leastDuration c (nibbleTrace o n) = c.tEH + c.tEL := by
  have hwrites : leastDuration c ((List.finRange 4).map fun j => .write (dataLine (o j)) (nibbleBit n (o j))) = 0 := by
    simp [leastDuration, Function.comp_def]
  have hpulse : leastDuration c [.write .e true, .delay .tEH, .write .e false, .delay .tEL] = c.tEH + c.tEL := by
    simp [leastDuration, Config.duration]
  rw [nibbleTrace, leastDuration_append, hwrites, hpulse, Nat.zero_add]

/-- Every line trace that fits the pieces takes what the pieces take. -/
theorem leastDuration_of_fits (c : Config) {segs : List Seg} {l : List TraceEvent} (h : fits segs l) :
    leastDuration c l = segsDuration c segs := by
  induction segs generalizing l with
  | nil =>
    cases h
    rfl
  | cons a as ih =>
    rw [segsDuration, List.map_cons, List.sum_cons, ← segsDuration]
    cases a with
    | write x v =>
      obtain ⟨m, rfl, hm⟩ := h
      rw [leastDuration_write_cons, ih hm, Seg.duration, Nat.zero_add]
    | delay d =>
      obtain ⟨m, rfl, hm⟩ := h
      rw [leastDuration_delay_cons, ih hm, Seg.duration]
    | nibble n =>
      obtain ⟨o, m, rfl, hm⟩ := h
      rw [leastDuration_append, leastDuration_nibbleTrace, ih hm, Seg.duration]

/-! ## The pieces of the operations -/

theorem segsDuration_cons (c : Config) (a : Seg) (as : List Seg) :
    segsDuration c (a :: as) = a.duration c + segsDuration c as := by
  simp [segsDuration]

theorem segsDuration_append (c : Config) (as bs : List Seg) :
    segsDuration c (as ++ bs) = segsDuration c as + segsDuration c bs := by
  simp [segsDuration]

/-- Two nibbles and a settle delay (R78). -/
theorem segsDuration_byteSegs (c : Config) (b : Byte) :
    segsDuration c (byteSegs b) = 2 * (c.tEH + c.tEL) + c.tSettle := by
  simp only [segsDuration, byteSegs, List.map_cons, List.map_nil, List.sum_cons, List.sum_nil, Seg.duration,
    Config.duration]
  omega

/-- The write to RS takes no time (R79, R80). -/
theorem segsDuration_rs_byteSegs (c : Config) (v : Level) (b : Byte) :
    segsDuration c (.write .rs v :: byteSegs b) = 2 * (c.tEH + c.tEL) + c.tSettle := by
  rw [segsDuration_cons, segsDuration_byteSegs, Seg.duration, Nat.zero_add]

theorem segsDuration_commandSegs (c : Config) (b : Byte) :
    segsDuration c (commandSegs b) =
      2 * (c.tEH + c.tEL) + c.tSettle + if isClearOrHome b then c.tLong else 0 := by
  rw [commandSegs, ← List.cons_append, segsDuration_append, segsDuration_rs_byteSegs]
  split <;> rfl

/-- Four pulses with their delays, then three command bytes, the last of them the clear command (R81). -/
theorem segsDuration_initSegs (c : Config) :
    segsDuration c initSegs =
      10 * (c.tEH + c.tEL) + c.tFS1 + c.tFS2 + c.tFS3 + 4 * c.tSettle + c.tLong := by
  have hfuncset : isClearOrHome 0x28 = false := rfl
  have hdispOn : isClearOrHome 0x0C = false := rfl
  have hclear : isClearOrHome 0x01 = true := rfl
  have hpulses : segsDuration c [.write .rs false, .nibble 0x3, .delay .tFS1, .nibble 0x3, .delay .tFS2,
      .nibble 0x3, .delay .tFS3, .nibble 0x2, .delay .tSettle] =
      4 * (c.tEH + c.tEL) + c.tFS1 + c.tFS2 + c.tFS3 + c.tSettle := by
    simp only [segsDuration, List.map_cons, List.map_nil, List.sum_cons, List.sum_nil, Seg.duration, Config.duration]
    omega
  simp only [initSegs, segsDuration_append, hpulses, segsDuration_commandSegs, hfuncset, hdispOn, hclear,
    Bool.false_eq_true, if_true, if_false]
  omega

/-- A text takes what its characters take (R98, R100). -/
theorem segsDuration_text (c : Config) (str : List Byte) :
    segsDuration c (str.flatMap charSegs) = str.length * (2 * (c.tEH + c.tEL) + c.tSettle) := by
  induction str with
  | nil => exact (Nat.zero_mul _).symm
  | cons b bs ih =>
    rw [List.flatMap_cons, segsDuration_append, charSegs, segsDuration_rs_byteSegs, ih, List.length_cons,
      Nat.succ_mul bs.length, Nat.add_comm]

/-! ## The runs of the operations -/

/-- A request takes what the pieces of its line trace take. -/
theorem runTakes_of_sendsFrom {s : State} {i : Instr} {w : ReqWord} {n d : Nat} {f : LineFile Level}
    {xs : List XferEvent} {segs : List Seg} (h : sendsFrom s i w n f xs segs) (hd : segsDuration s.cfg segs = d) :
    runTakes s i d := by
  obtain ⟨t, u, l, hexec, hrun, hfits, hu⟩ := h
  exact ⟨n, t, u, l, hexec, hrun, by rw [hu], by rw [hu], (leastDuration_of_fits s.cfg hfits).trans hd⟩

/-- Settles O30: each operation's line trace fits the pieces its own obligation gives it. -/
theorem leastDurations : Obligations.LeastDurations := by
  refine ⟨fun s n => ?nibble, fun s b => ?byte, fun s hq hr => ?requests⟩
  case nibble =>
    obtain ⟨t, l, hexec, hfits, ht⟩ := sendNibblePulsesOnce n s
    exact ⟨t, l, hexec, by rw [ht], leastDuration_of_fits _ hfits⟩
  case byte =>
    obtain ⟨t, l, hexec, hfits, ht⟩ := sendByteSendsHighNibbleFirst b s
    exact ⟨t, l, hexec, by rw [ht], (leastDuration_of_fits _ hfits).trans (segsDuration_byteSegs s.cfg b)⟩
  case requests =>
    refine ⟨fun c => ?chr, fun c => ?cmd, fun col row hddram ha => ?gotoxy,
      fun h8 h4 hfunc hon hclear => ?init, fun addr str htext hterm => ?wrstr,
      fun value width fill base hv hmin hmax hfill => ?wrnum⟩
    case chr => exact runTakes_of_sendsFrom (lcdChrSendsTheCharacter c s hq hr) (segsDuration_rs_byteSegs _ _ _)
    case cmd => exact runTakes_of_sendsFrom (lcdCmdSendsTheCommand c s hq hr) (segsDuration_commandSegs _ _)
    case gotoxy =>
      exact runTakes_of_sendsFrom (gotoxySendsTheAddress col row s hq hr hddram ha) (segsDuration_rs_byteSegs _ _ _)
    case init =>
      exact runTakes_of_sendsFrom (lcdInitRunsTheSequence s hq hr h8 h4 hfunc hon hclear) (segsDuration_initSegs _)
    case wrstr =>
      exact runTakes_of_sendsFrom (wrstrStreamsTheString addr str s hq hr htext hterm) (segsDuration_text _ _)
    case wrnum =>
      refine runTakes_of_sendsFrom (wrnumSendsTheField value width fill base s hq hr hv hmin hmax hfill) ?_
      rw [segsDuration_text, fieldText_length]

end Sys2Proof.Machine
end

section
/-! The reset as an event (R155, R157). -/

namespace Sys2Proof.Machine

theorem exec_rst (s : State) : exec .rst s = .next s.afterReset := rfl

/-- Settles O47: field by field, as the state after a reset is written. -/
theorem rstResetsTheBlock : Obligations.RstResetsTheBlock := fun s =>
  ⟨s.afterReset, exec_rst s, rfl, rfl, rfl, rfl, rfl, rfl, rfl, rfl, rfl, rfl, rfl, rfl, rfl, rfl, rfl, rfl, rfl, rfl,
    rfl⟩

/-! ## The transfer of a reset in the middle of a strobe (R157) -/

/-- Each bit of the nibble on the data lines is the level of its line (R11). -/
theorem LineFile.nibbleBit_dataNibble (f : LineFile Level) (i : Fin 4) :
    nibbleBit f.dataNibble i = f.get (dataLine i) := by
  obtain ⟨rs, e, db7, db6, db5, db4⟩ := f
  decide +revert

/-- With E low there is no strobe for the reset to end (R157). -/
theorem State.afterReset_xferTrace_of_e_low {s : State} (he : s.lines.e = false) :
    s.afterReset.xferTrace = s.xferTrace := by
  simp [State.resetEntries, he]

theorem State.afterReset_xferTrace_of_e_high {s : State} (he : s.lines.e = true) :
    s.afterReset.xferTrace = s.xferTrace ++ [.entry (s.lines.rs && Config.freeResetRs s.resets)
      (s.lines.dataNibble &&& Config.freeResetNibble s.resets)] := by
  simp [State.resetEntries, he]

/-- Whatever of the old levels the display still sees, a data line shows 1 only if it was 1. -/
theorem LineFile.get_dataLine_of_masked {f : LineFile Level} {mask : Nibble} (i : Fin 4)
    (h : nibbleBit (f.dataNibble &&& mask) i = true) : f.get (dataLine i) = true := by
  rw [nibbleBit, BitVec.getLsbD_and, Bool.and_eq_true] at h
  rw [← f.nibbleBit_dataNibble i]
  exact h.1

/-- Settles O48: the entry's levels are those of the lines, masked by what is free. -/
theorem rstMidStrobeMayLatchANibble : Obligations.RstMidStrobeMayLatchANibble := by
  refine fun s => ⟨s.afterReset, exec_rst s, State.afterReset_xferTrace_of_e_low, fun he =>
    ⟨_, _, State.afterReset_xferTrace_of_e_high he, fun hrs => (Bool.and_eq_true_iff.1 hrs).1, ?_, ?_, ?_, ?_⟩⟩
  · exact LineFile.get_dataLine_of_masked 0
  · exact LineFile.get_dataLine_of_masked 1
  · exact LineFile.get_dataLine_of_masked 2
  · exact LineFile.get_dataLine_of_masked 3

end Sys2Proof.Machine
end
